-- ==== Sys2Proof/Word.lean ====
section
/-! DEFINITION. The word types of the block and their plainest arithmetic (R10: little-endian, bit 0 least significant). -/

namespace Sys2Proof

/-- One byte of a message, of memory or of a Catalogue value. -/
abbrev Byte := BitVec 8

/-- One header, slip, record or Shelf List word (R42, R68, R131). -/
abbrev W64 := BitVec 64

/-- The bytes of a granule (R10: 32 bytes). -/
abbrev granuleBytes : Nat := 32

/-- The bytes of a line (R98: 64 bytes). -/
abbrev lineBytes : Nat := 64

end Sys2Proof
end

