-- ==== Sys2Proof/Syntax.lean ====
section
/-! DEFINITION. The commands of the block: one constructor of `Instr` per row of the opcode table, and the operand types. -/

namespace Sys2Proof

/-- The header flit of a message, field by field (R42); `w3` to `w6` are the operand words of R46.
The `rsv` fields are the reserved ones: R11 refuses a message in which one is not zero. -/
structure Hdr where
  opcode : BitVec 8 := 0
  mclass : BitVec 2 := 0
  escape : Bool := false
  last : Bool := false
  status : BitVec 4 := 0
  tclass : BitVec 6 := 0
  domain : BitVec 8 := 0
  rsv0 : BitVec 2 := 0
  srcid : BitVec 20 := 0
  len : BitVec 12 := 0
  rsv1 : BitVec 10 := 0
  addr : BitVec 54 := 0
  csg : Bool := false
  ord : Bool := false
  sync : Bool := false
  rsv2 : Bool := false
  cid : BitVec 12 := 0
  seq : BitVec 16 := 0
  tag : BitVec 16 := 0
  cgen : BitVec 4 := 0
  rsv3 : BitVec 12 := 0
  w3 : W64 := 0
  w4 : W64 := 0
  w5 : W64 := 0
  w6 : W64 := 0
  hcrc : BitVec 32 := 0
  rsv7 : BitVec 32 := 0
  deriving DecidableEq, Repr

/-- A message as it arrives at a client port: its port, the slot of its header flit, whether its slots name the escape channel
(SLOT.VC[3], R37), the header and the bytes of its data flits. `quick` says that its Carrel reads end inside this step, as they do while no Carrel refresh or
calibration holds them up (R239); otherwise each ends in a CARREL_READ_COMPLETE. -/
structure Arrival where
  port : Nat
  slot : Nat := 0
  esc : Bool := false
  hdr : Hdr
  data : List Byte := []
  quick : Bool := true
  deriving DecidableEq, Repr

/-- A Catalogue session (R420): a CAN FD channel, the I3C controller, a pair of port and SRCID, or the Clerk. -/
inductive Sess where
  | can (ch : Nat)
  | i3c
  | inband (port srcid : Nat)
  | clerk
  deriving DecidableEq, Repr

/-- A key of an in-order sequence (R52, R114): `fwd` for the FWR of a partner block. -/
structure SrcKey where
  fwd : Bool := false
  src : Nat
  deriving DecidableEq, Repr

/-- Symbol errors met by a read: position and the value XORed onto the stored symbol (R279, R286). -/
abbrev SymErr := List (Nat × Byte)

/-- The error-free transitions that one lane received at each tap, in each direction (R321). -/
structure LaneCounts where
  rd : List Nat := []
  wr : List Nat := []
  deriving DecidableEq, Repr

/-- The sweeps of one PC: pairs of sweeps, each sweep with one entry per lane (R321, R322). -/
structure PcSweep where
  bay : Nat
  pc : Nat
  runs : List (List LaneCounts × List LaneCounts)
  deriving DecidableEq, Repr

/-- A rail of R307 that belongs to one bay. -/
inductive BayRail where
  | vddb | vddp | vcar
  deriving DecidableEq, Repr

/-- A rail of R307. -/
inductive Rail where
  | vaux | vddr
  | bay (n : Nat) (r : BayRail)
  deriving DecidableEq, Repr

/-- What the hardware finds while a bring-up step, a restart or a fence lift runs: the observations that R304 to R335
decide on. The defaults are those of a block without a fault. A PC without a sweep entry measured a full eye. `spares` and
`capacity` give, for a bay, the spare lanes of each PC and the GB that its stack reports; `carrelClosed` the Carrel paths, by bay,
whose eye is closed; `rails` when a rail reached power-good, in µs after step 1 began, where that was not at once. -/
structure StepReport where
  rails : List (Rail × Nat) := []
  refclkHz : Nat := 100000000
  islandsDown : List Nat := []
  twinDown : Nat := 0
  stackDead : List Nat := []
  stackBad : List Nat := []
  capacity : List (Nat × Nat) := []
  spares : List (Nat × Nat) := []
  sweeps : List PcSweep := []
  verifyFail : List (Nat × Nat) := []
  carrelDead : List Nat := []
  carrelUncal : List Nat := []
  carrelClosed : List (Nat × Nat) := []
  storeBad : List Nat := []
  deriving DecidableEq, Repr

/-- What a paced Shelf Reading step reads (R293). -/
inductive ScrubTarget where
  | granule (addr : Nat)
  | line (addr : Nat)
  | store (line : Nat)
  deriving DecidableEq, Repr

/-- A place where a crossing's parity error was found (R316). -/
inductive CrossPlace where
  | bay (n : Nat)
  | link (n : Nat)
  | twin (t : Nat)
  deriving DecidableEq, Repr

/-- What of the Tube fails (R23): a link of R310, or a hub island of R309. -/
inductive TubePart where
  | link (n : Nat)
  | hub (island : Nat)
  deriving DecidableEq, Repr

/-- The observations of one bay at a restart (R349, R355, R356): the stack's poll in 1/16 °C, and what the steps find. -/
structure RestartReport where
  poll : Int := 640
  report : StepReport := {}
  deriving DecidableEq, Repr

/-- The commands of the block: one constructor per row of spec/opcode_table.json, in the table's order. -/
inductive Instr where
  | rd (a : Arrival)
  | wr (a : Arrival)
  | atom (a : Arrival)
  | admission (a : Arrival)
  | release (a : Arrival)
  | fenceFull (a : Arrival)
  | fenceRelease (a : Arrival)
  | fenceAcquire (a : Arrival)
  | tlyRead (a : Arrival)
  | tlyAdd (a : Arrival)
  | tlySub (a : Arrival)
  | tlyFetchAdd (a : Arrival)
  | tlyFetchSub (a : Arrival)
  | tlyWaitGe (a : Arrival)
  | tlyWaitEq (a : Arrival)
  | tlyArrive (a : Arrival)
  | tlyArriveWait (a : Arrival)
  | tlyClaim (a : Arrival)
  | tlySetlimit (a : Arrival)
  | tlySettimeout (a : Arrival)
  | tlySet (a : Arrival)
  | tlyFree (a : Arrival)
  | tlyArm (a : Arrival)
  | tlyDisarm (a : Arrival)
  | ownerLost (a : Arrival)
  | mgmtRead (a : Arrival)
  | mgmtWrite (a : Arrival)
  | contrib (a : Arrival)
  | push (a : Arrival)
  | fwr (a : Arrival)
  | fwack (a : Arrival)
  | pushack (a : Arrival)
  | unknownOpcode (a : Arrival) (vc : BitVec 2)
  | headerDiscard (a : Arrival) (vc : BitVec 2)
  | creditReturn (port : Nat) (cr : BitVec 9)
  | escapeFallback (port : Nat) (cls : BitVec 2)
  | ordRelease (key : SrcKey)
  | orderingTimeout (key : SrcKey) (seq : BitVec 16)
  | seqStateDrop (key : SrcKey)
  | portConfigWrite (sess : Sess) (port : Nat) (value : Nat)
  | bayIngress (op part bank row : Nat)
  | stageConfirm (op bay : Nat)
  | mirrorTimeout (partner : Nat) (tag : BitVec 16)
  | validBitFetch (line : Nat) (ok1 ok2 : Bool)
  | bayCommandIssue (bay : Nat)
  | requestAged (bay op part : Nat)
  | rowIdlePrecharge (bay pc bank : Nat)
  | refreshIntervalDue (bay pc bank : Nat)
  | burstHoldEnd (bay pc : Nat)
  | refreshLimiter (bay pc bank : Nat)
  | stackReadComplete (op part : Nat) (err reread : SymErr) (inner : Bool)
  | carrelWriteback (line bank row : Nat) (evict : Bool)
  | shelfReadingStep (bay : Nat) (target : ScrubTarget) (err reread : SymErr) (inner : Bool)
  | pigeonholeEccError (bay : Nat) (doubleBit : Bool)
  | retrievalContribution (cid tile : Nat) (errs : List (Nat × SymErr × SymErr))
  | coalescingWindow (cid tile : Nat)
  | batchApply (cid tile lane : Nat) (ok : Bool) (lineErr : Option (Nat × SymErr))
  | tileTimeout (cid tile : Nat)
  | postmarkDigest (cid tile : Nat)
  | dispatchCopy (cid tile dest : Nat)
  | dispatchTimeout (cid tile dest : Nat)
  | streamTileRead (cid : Nat) (errs : List (Nat × SymErr × SymErr))
  | consignmentComplete (cid : Nat)
  | sortingFrameSlot
  | leaseReturn (bay cls : Nat)
  | meterRateWrite (sess : Sess) (cls sub value : Nat)
  | gateChange
  | timetableCommit (sess : Sess)
  | timetableTakeEffect
  | stageClear (sess : Sess)
  | stageValidate (sess : Sess)
  | commitKeyFirst (sess : Sess) (key : Nat)
  | commitKeySecond (sess : Sess) (key : Nat)
  | commitKeyExpiry
  | commitDrainEnd
  | commitDrainTimeout
  | moveUnitCopy (first : Nat) (bad : List Nat)
  | waiterTimeout (id : Nat)
  | barrierAnswerHandover (tally : Nat)
  | armedRelease (tally : Nat)
  | todLockChange (locked : Bool) (netTime : Nat)
  | tallyDebugSet (sess : Sess) (value : Nat)
  | tallyForcedFree (sess : Sess)
  | tallyCreateShared (sess : Sess) (value : Nat)
  | tallySetLimit (sess : Sess) (value : Nat)
  | tallySetWtimeout (sess : Sess) (value : Nat)
  | twinCheckerError (twin : Nat)
  | twinMismatch
  | twinReexecuteDone (agree : Bool)
  | twinRejoin (sess : Sess)
  | twinRejoinStepDone (ok : Bool)
  | tubeLinkFail (part : TubePart)
  | crossingParityError (place : CrossPlace)
  | governorWindow (uncapped : List Nat) (carrelRt carrelOther collation : Nat)
  | coreRailLoss (vaux : Bool)
  | bayRailLoss (bay : Nat) (rail : BayRail)
  | railRestore
  | refclkLoss
  | refclkTimeout
  | brstRelease (canId canRates i3cStatic : Nat)
  | blockReset (sess : Sess)
  | proceed (sess : Sess)
  | bringupStepComplete (report : StepReport)
  | bringupStepTimeout
  | hostWaitTimeout
  | testenRise
  | calRunRequest (sess : Sess)
  | calIntervalExpiry (bay pc : Nat)
  | retrainWindowOpen (bay pc : Nat)
  | retrainWindowEnd (bay pc : Nat) (counts : List (Nat × Nat))
  | calRunTimeout (bay pc : Nat)
  | slewStep (bay pc : Nat)
  | calRecordWrite (sess : Sess) (record : List Byte)
  | erasureListWrite (sess : Sess) (lanes : List Byte)
  | shiftRequest (sess : Sess) (bay point : Nat)
  | shiftDeferralExpiry (bay : Nat)
  | shiftGrant (bay : Nat)
  | bandSwap (bay : Nat)
  | shiftComplete (bay : Nat) (failed : List Nat)
  | comparatorChange (bay sensor threshold : Nat) (set : Bool)
  | stackTempPoll (bay : Nat) (temp : Int)
  | sensorSchedule
  | sensorReadNow (sess : Sess)
  | sensorReadingDone (bay sensor : Nat) (temp : Int)
  | ladderStepDown (bay : Nat)
  | ladderStepUp (bay : Nat)
  | tripRestart (bay : Nat) (r : RestartReport)
  | coldRestart (bay : Nat) (r : RestartReport)
  | withdrawalDeclaration (sess : Sess) (value : Nat)
  | orderedFence (sess : Sess) (bay : Nat)
  | fenceLift (sess : Sess) (bay : Nat) (report : StepReport)
  | healthScoreUpdate
  | shadowModeWrite (sess : Sess) (value : Nat)
  | newRun (sess : Sess)
  | replaySelect (sess : Sess) (value : Nat)
  | pauseRequest (sess : Sess)
  | paused
  | pauseTimeout
  | resume (sess : Sess)
  | postmarkSelfTest (sess : Sess)
  | login (sess : Sess) (bytes : List Byte)
  | logout (sess : Sess)
  | sessionIdleTimeout (sess : Sess)
  | loginLockoutEnd (sess : Sess)
  | catalogueWrite (sess : Sess) (index sub : Nat) (value : List Byte)
  | dataPortOpenRead (sess : Sess)
  | dataPortOpenWrite (sess : Sess)
  | dataPortClose (sess : Sess)
  | dataPortAbandon (sess : Sess)
  | dataPortWindowRead (sess : Sess)
  | dataPortWindowWrite (sess : Sess) (bytes : List Byte)
  | dataPortHoldTimeout
  | eventRead (sess : Sess)
  | eventReadTimeout (sess : Sess)
  | canSdoFrame (ident : Nat) (frame : List Byte)
  | canTransferAbandon (ch : Nat)
  | heartbeat
  | i3cRequest (bytes : List Byte)
  | i3cAnswerRead
  | entdaa (addr : Nat)
  | setdasa (static addr : Nat)
  | rstdaa
  | enec (bits : Byte)
  | disec (bits : Byte)
  | getpid
  | getbcr
  | getdcr
  | getstatus
  | setmwl (len : Nat)
  | setmrl (len : Nat)
  | getmwl
  | getmrl
  | counterFreeze (sess : Sess)
  | counterResume (sess : Sess)
  | counterClearAll (sess : Sess)
  | counterClear (sess : Sess)
  | counterControlWrite (sess : Sess) (counter value : Nat)
  | jostleEnable (sess : Sess)
  | jostleDisable (sess : Sess)
  | jostleTimeout
  | bypass (tdi : Bool)
  | idcode
  | samplePreload (pins : List Bool)
  | extest
  | clamp
  | highz
  | wsel (wrapper : Nat)
  | wsp (instr : Nat)
  | d3d (bay : Nat)
  | result (a : Arrival)
  | carrelReadComplete (op part : Nat) (err : SymErr)
  | reservationConfirm (cid bay : Nat) (ok : Bool)
  | refclkReturn
  | brstAssert
  | testLogicReset
  | testenFall
  | jostleCreditHoldEnd (port : Nat) (cls : BitVec 2)
  deriving DecidableEq, Repr

end Sys2Proof
end

