-- ==== Sys2Proof/Machine/Bits.lean ====
section
/-! DEFINITION. Byte order, bit fields, sign extension and check codes shared by every layer (R10, R42, R43, R398). -/

namespace Sys2Proof.Machine

/-- The `n` low bytes of a number, least significant first (R10). -/
def toBytes : Nat → Nat → List Byte
  | 0, _ => []
  | n + 1, v => BitVec.ofNat 8 v :: toBytes n (v / 256)

/-- The number that bytes spell, least significant first (R10). -/
def ofBytes : List Byte → Nat
  | [] => 0
  | b :: bs => b.toNat + 256 * ofBytes bs

/-- The number that bytes spell, most significant first (the big-endian fields of R318, R380, R404, R421). -/
def ofBytesBe (bs : List Byte) : Nat := bs.foldl (fun v b => v * 256 + b.toNat) 0

/-- The `n` low bytes of a number, most significant first. -/
def toBytesBe (n v : Nat) : List Byte := (toBytes n v).reverse

/-- Bits `[hi:lo]` of a number. -/
def bits (v hi lo : Nat) : Nat := (v >>> lo) % 2 ^ (hi + 1 - lo)

/-- Bit `i` of a number. -/
def bit (v i : Nat) : Bool := Nat.testBit v i

/-- A Bool as a number. -/
def b2n (b : Bool) : Nat := if b then 1 else 0

/-- Two's-complement reading of an `n`-bit number (R416). -/
def signed (n v : Nat) : Int :=
  if v % 2 ^ n < 2 ^ (n - 1) then (v % 2 ^ n : Nat) else ((v % 2 ^ n : Nat) : Int) - (2 ^ n : Nat)

/-- The two's-complement coding of an integer in `n` bits. -/
def unsigned (n : Nat) (v : Int) : Nat := (v % (2 ^ n : Nat)).toNat

/-- Bytes padded with zero to a length, or cut to it. -/
def padTo (n : Nat) (bs : List Byte) : List Byte := (bs ++ List.replicate (n - bs.length) 0).take n

/-- Zero bytes. -/
def zeros (n : Nat) : List Byte := List.replicate n 0

/-- Rounds a division up. -/
def ceilDiv (a b : Nat) : Nat := (a + b - 1) / b

/-- The number of bits set among the low `n` bits. -/
def popcount : Nat → Nat → Nat
  | 0, _ => 0
  | n + 1, v => v % 2 + popcount n (v / 2)

/-- The positions of the bits set among the low `n` bits, ascending. -/
def bitsSet (n v : Nat) : List Nat := (List.range n).filter (bit v)

/-- One shift of a reflected CRC register. -/
def crcShift (poly : Nat) : Nat → Nat → Nat
  | 0, c => c
  | n + 1, c => crcShift poly n (if c % 2 = 1 then (c / 2) ^^^ poly else c / 2)

/-- CRC-32C (polynomial 0x1EDC6F41, reflected 0x82F63B78; initial and final complement), used by R42, R330, R339, R398. -/
def crc32c (bs : List Byte) : Nat :=
  (bs.foldl (fun c b => crcShift 0x82F63B78 8 (c ^^^ b.toNat)) 0xFFFFFFFF) ^^^ 0xFFFFFFFF

/-- CRC-16-CCITT (polynomial 0x1021, initial 0), the check of a CiA 301 block transfer (R430). -/
def crc16Step : Nat → Nat → Nat
  | 0, c => c
  | n + 1, c => crc16Step n (if c / 32768 % 2 = 1 then ((c * 2) ^^^ 0x1021) % 65536 else (c * 2) % 65536)

def crc16 (bs : List Byte) : Nat :=
  bs.foldl (fun c b => crc16Step 8 (c ^^^ (b.toNat * 256))) 0

/-- One step of the 64-bit generator of R233: feedback x^64 + x^63 + x^61 + x^60 + 1. -/
def lfsrStep (s : BitVec 64) : BitVec 64 :=
  let f := s.getLsbD 63 ^^ s.getLsbD 62 ^^ s.getLsbD 60 ^^ s.getLsbD 59
  (s <<< 1) ||| (if f then 1 else 0)

/-- A generator's loaded state: zero is replaced by 1 (R233, R454, R458). -/
def lfsrSeed (s : BitVec 64) : BitVec 64 := if s = 0 then 1 else s

/-- A generator draws when the low `n` bits of its new state are all zero (R233). -/
def lfsrDraws (n : Nat) (s : BitVec 64) : Bool := s.toNat % 2 ^ n == 0

/-- The entry of an association list, or a default. -/
def getA {α : Type} (l : List (Nat × α)) (k : Nat) (d : α) : α :=
  match l.find? (fun p => p.1 == k) with
  | some p => p.2
  | none => d

/-- Sets an entry of an association list kept in rising key order. -/
def putA {α : Type} : List (Nat × α) → Nat → α → List (Nat × α)
  | [], k, v => [(k, v)]
  | (k', v') :: l, k, v =>
    if k < k' then (k, v) :: (k', v') :: l
    else if k = k' then (k, v) :: l
    else (k', v') :: putA l k v

/-- Removes an entry of an association list. -/
def delA {α : Type} (l : List (Nat × α)) (k : Nat) : List (Nat × α) := l.filter (fun p => p.1 != k)

/-- Sets an entry, or removes it when the value is its default: the canonical form of a sparse list. -/
def setA {α : Type} [DecidableEq α] (l : List (Nat × α)) (k : Nat) (v d : α) : List (Nat × α) :=
  if v = d then delA l k else putA l k v

/-- The canonical form: keys strictly rising. -/
def risingFrom {α : Type} : Nat → List (Nat × α) → Bool
  | _, [] => true
  | m, (k, _) :: l => m ≤ k && risingFrom (k + 1) l

/-- Inserts a number into a strictly rising list. -/
def insertN : List Nat → Nat → List Nat
  | [], n => [n]
  | m :: l, n => if n < m then n :: m :: l else if n = m then m :: l else m :: insertN l n

/-- The elements of a list without repeats, first occurrences kept. -/
def nub : List Nat → List Nat
  | [] => []
  | x :: xs => x :: (nub xs).filter (· != x)

/-- Inserts an element before the first with a greater key. -/
def insertBy {α : Type} (f : α → Nat) (x : α) : List α → List α
  | [] => [x]
  | y :: l => if f x < f y then x :: y :: l else y :: insertBy f x l

/-- Sorts a list by a key; equal keys keep their order. -/
def sortBy {α : Type} (f : α → Nat) (l : List α) : List α := l.foldl (fun acc x => insertBy f x acc) []

/-- The sum of a list of numbers. -/
def sumN (l : List Nat) : Nat := l.foldl (· + ·) 0

end Sys2Proof.Machine
end

