-- ==== Sys2Proof/Machine/Crypto.lean ====
section
/-! DEFINITION. The hashes and signatures that R319, R381, R404 and R421 name: SHA-256 and SHA-384 (FIPS 180-4) and ECDSA
P-384 verification (FIPS 186-5). The spec names the standards and leaves their text to them (PRESUMED, log 6). -/

namespace Sys2Proof.Machine

/-- The first 80 primes, from which FIPS 180-4 takes every constant of the two hashes. -/
def shaPrimes : List Nat :=
  (List.range 410).filter fun n => 2 ≤ n && (List.range 19).all fun d => n == d + 2 || n % (d + 2) != 0

/-- The greatest `x` with `x ^ k ≤ v` among those that differ from the given one in the low `n` bits. -/
def rootFrom (k v : Nat) : Nat → Nat → Nat
  | 0, x => x
  | n + 1, x => rootFrom k v n (if (x + 2 ^ n) ^ k ≤ v then x + 2 ^ n else x)

/-- The first `n` bits of the fractional part of the `k`-th root of a number below 512. -/
def rootBits (k n v : Nat) : Nat := rootFrom k (v * 2 ^ (k * n)) (n + 5) 0 % 2 ^ n

/-- The parameters in which the two hashes differ: word bits, bytes per block, rounds, and the rotation amounts of
Σ1, Σ0, σ0 and σ1, the last of each σ being a shift. -/
structure ShaParams where
  w : Nat
  block : Nat
  rounds : Nat
  k : List Nat
  big1 : Nat × Nat × Nat
  big0 : Nat × Nat × Nat
  small0 : Nat × Nat × Nat
  small1 : Nat × Nat × Nat

/-- Rotation to the right within `w` bits. -/
def rotr (w n x : Nat) : Nat := ((x >>> n) ||| (x <<< (w - n))) % 2 ^ w

/-- Message padding: a one bit, zeros and the bit length, big-endian, to a multiple of the block. -/
def shaPad (p : ShaParams) (m : List Byte) : List Byte :=
  let lenBytes := p.block / 8
  let z := (p.block - (m.length + 1 + lenBytes) % p.block) % p.block
  m ++ [0x80] ++ zeros z ++ toBytesBe lenBytes (m.length * 8)

/-- Words of the message schedule, newest first. -/
def shaSchedule (p : ShaParams) : Nat → List Nat → List Nat
  | 0, l => l
  | n + 1, l =>
    let g (x : Nat) (r : Nat × Nat × Nat) : Nat := (rotr p.w r.1 x) ^^^ (rotr p.w r.2.1 x) ^^^ (x >>> r.2.2)
    let t := (g (l.getD 1 0) p.small1 + l.getD 6 0 + g (l.getD 14 0) p.small0 + l.getD 15 0) % 2 ^ p.w
    shaSchedule p n (t :: l)

/-- One round on the eight working variables: the choice of `f` or `g` by `e`, and the majority of `a`, `b` and `c`. -/
def shaRound (p : ShaParams) (h : List Nat) (kw : Nat) : List Nat :=
  let v (i : Nat) : Nat := h.getD i 0
  let s (x : Nat) (r : Nat × Nat × Nat) : Nat := (rotr p.w r.1 x) ^^^ (rotr p.w r.2.1 x) ^^^ (rotr p.w r.2.2 x)
  let t := v 7 + s (v 4) p.big1 + ((v 6) ^^^ ((v 4) &&& ((v 5) ^^^ (v 6)))) + kw
  let maj := ((v 0) &&& (v 1)) ||| ((v 2) &&& ((v 0) ||| (v 1)))
  [(t + s (v 0) p.big0 + maj) % 2 ^ p.w] ++ h.take 3 ++ [(v 3 + t) % 2 ^ p.w] ++ (h.drop 4).take 3

/-- Cuts bytes into big-endian words of `n` bytes. -/
def beWords (n : Nat) : Nat → List Byte → List Nat
  | 0, _ => []
  | k + 1, bs => ofBytesBe (bs.take n) :: beWords n k (bs.drop n)

/-- The hash state after each block. -/
def shaBlocks (p : ShaParams) : Nat → List Byte → List Nat → List Nat
  | 0, _, h => h
  | n + 1, m, h =>
    let ws := (shaSchedule p (p.rounds - 16) (beWords (p.w / 8) 16 (m.take p.block)).reverse).reverse
    let out := (List.zipWith (· + ·) p.k ws).foldl (shaRound p) h
    shaBlocks p n (m.drop p.block) (List.zipWith (fun a b => (a + b) % 2 ^ p.w) h out)

/-- SHA-256 (FIPS 180-4): 32 bytes. Its constants are 32 bits of the cube roots of the first 64 primes and of the square roots of
the first eight. -/
def sha256 (m : List Byte) : List Byte :=
  let p : ShaParams :=
    { w := 32, block := 64, rounds := 64, k := (shaPrimes.take 64).map (rootBits 3 32)
      big1 := (6, 11, 25), big0 := (2, 13, 22), small0 := (7, 18, 3), small1 := (17, 19, 10) }
  let q := shaPad p m
  (shaBlocks p (q.length / 64) q ((shaPrimes.take 8).map (rootBits 2 32))).flatMap (toBytesBe 4)

/-- SHA-384 (FIPS 180-4): 48 bytes. Its constants are 64 bits of the cube roots of the first 80 primes and of the square roots of
the ninth to the sixteenth. -/
def sha384 (m : List Byte) : List Byte :=
  let p : ShaParams :=
    { w := 64, block := 128, rounds := 80, k := shaPrimes.map (rootBits 3 64)
      big1 := (14, 18, 41), big0 := (28, 34, 39), small0 := (1, 8, 7), small1 := (19, 61, 6) }
  let q := shaPad p m
  ((shaBlocks p (q.length / 128) q (((shaPrimes.drop 8).take 8).map (rootBits 2 64))).flatMap (toBytesBe 8)).take 48

/-! ### The curve P-384 -/

/-- The field prime. -/
def p384 : Nat := 2 ^ 384 - 2 ^ 128 - 2 ^ 96 + 2 ^ 32 - 1

/-- The order of the base point. -/
def n384 : Nat := 0xffffffffffffffffffffffffffffffffffffffffffffffffc7634d81f4372ddf581a0db248b0a77aecec196accc52973

/-- The coefficient b. -/
def b384 : Nat := 0xb3312fa7e23ee7e4988e056be3f82d19181d9c6efe8141120314088f5013875ac656398d8a2ed19d2a85c8edd3ec2aef

/-- The base point. -/
def g384 : Nat × Nat :=
  (0xaa87ca22be8b05378eb1c71ef320ad746e1d3b628ba79b9859f741e082542a385502f25dbf55296c3a545e3872760ab7,
   0x3617de4a96262c6f5d9e98bf9292dc29f8f41dbd289a147ce9da3113b5f0b8c00a60b1ce1d7e819d7a431d7c90ea0e5f)

/-- Exponentiation modulo `m`, over the `n` low bits of the exponent. -/
def powMod (m : Nat) : Nat → Nat → Nat → Nat
  | 0, _, _ => 1 % m
  | n + 1, b, e => if e % 2 = 1 then b * powMod m n (b * b % m) (e / 2) % m else powMod m n (b * b % m) (e / 2)

/-- The inverse modulo a prime below 2^384, by Fermat. -/
def invMod (m a : Nat) : Nat := powMod m 384 (a % m) (m - 2)

/-- Addition of points; `none` is the point at infinity. -/
def addPoint : Option (Nat × Nat) → Option (Nat × Nat) → Option (Nat × Nat)
  | none, q => q
  | p, none => p
  | some (x1, y1), some (x2, y2) =>
    if x1 = x2 && (y1 + y2) % p384 = 0 then none else
    let l := if x1 = x2 then (3 * x1 * x1 + (p384 - 3)) * invMod p384 (2 * y1) % p384
      else (y2 + p384 - y1) * invMod p384 (x2 + p384 - x1) % p384
    let x := (l * l + 2 * p384 - x1 - x2) % p384
    some (x, (l * (x1 + p384 - x) + p384 - y1) % p384)

/-- Scalar multiplication over the `n` low bits. -/
def mulPoint : Nat → Nat → Option (Nat × Nat) → Option (Nat × Nat)
  | 0, _, _ => none
  | n + 1, k, q =>
    let r := mulPoint n (k / 2) (addPoint q q)
    if k % 2 = 1 then addPoint q r else r

/-- ECDSA P-384 with SHA-384 (FIPS 186-5): the key is X then Y and the signature r then s, 48 bytes each, big-endian. -/
def ecdsaValid (key sig msg : List Byte) : Bool :=
  let x := ofBytesBe (key.take 48)
  let y := ofBytesBe ((key.drop 48).take 48)
  let r := ofBytesBe (sig.take 48)
  let t := ofBytesBe ((sig.drop 48).take 48)
  if key.length != 96 || sig.length != 96 || r == 0 || n384 ≤ r || t == 0 || n384 ≤ t || p384 ≤ x || p384 ≤ y ||
     (y * y) % p384 != (x * x * x + (p384 - 3) * x + b384) % p384 then false
  else
    let e := ofBytesBe (sha384 msg)
    let w := invMod n384 t
    match addPoint (mulPoint 384 (e * w % n384) (some g384)) (mulPoint 384 (r * w % n384) (some (x, y))) with
    | none => false
    | some (v, _) => v % n384 == r

end Sys2Proof.Machine
end

