-- ==== Sys2Proof/Machine/State.lean ====
section
/-! DEFINITION. The state of the block as plain data, the ways a step can stop, and the state after reset. -/

namespace Sys2Proof.Machine

/-- A sparse map from a number to a number: keys strictly rising, and no key at its default. -/
abbrev Dict := List (Nat × Nat)

/-- What leaves the block. -/
inductive Wire where
  /-- A message on a client port (R42), with its data flits' bytes. -/
  | msg (port : Nat) (hdr : Hdr) (data : List Byte)
  /-- A credit return CR0 or CR1 in a beat's sideband (R37). -/
  | credit (port : Nat) (cr : BitVec 9)
  /-- The port reports link-down to the host (R21, R43). -/
  | linkDown (port : Nat)
  /-- The answer of a Catalogue access over a transport other than in-band: abort code (0 for none) and value (R428). -/
  | cat (sess : Sess) (abort : Nat) (value : List Byte)
  /-- A frame on CAN FD: identifier and bytes (R430, R440). -/
  | can (ident : Nat) (bytes : List Byte)
  /-- What the I3C controller reads (R431, R432). -/
  | i3c (bytes : List Byte)
  /-- An in-band interrupt with its mandatory data byte (R432). -/
  | ibi (byte : Byte)
  /-- The output pin SLOW_REQ changes (R350). -/
  | slowReq (on : Bool)
  /-- The output pin STK_PWREN[n] changes (R307). -/
  | stkPwren (bay : Nat) (on : Bool)
  /-- Bits shifted out of TDO, first bit first (R465). -/
  | tdo (bits : List Bool)
  deriving DecidableEq, Repr

/-- A message that waits for credits on its port since an instant (R40). -/
structure OutMsg where
  hdr : Hdr
  data : List Byte := []
  since : Nat
  deriving DecidableEq, Repr

/-- A KIND 2 Jostle hold on a port (R457): class, withheld flits and when it ends. -/
structure CreditHold where
  cls : Nat
  withheld : Nat := 0
  until_ : Nat := 0
  deriving DecidableEq, Repr

/-- The sizes in which the block comes (R6). -/
inductive Size where
  | kz8 | kz12 | kz16 | kz24
  deriving DecidableEq, Repr

/-- Stack Bays of a size, B (R6). -/
def Size.bays : Size → Nat
  | .kz8 => 8 | .kz12 => 12 | .kz16 => 16 | .kz24 => 24

/-- Client ports of a size: two per bay (R6, R7). -/
def Size.ports (z : Size) : Nat := 2 * z.bays

/-- Shelf List entries of a size: 8,192 per bay (R6, R7). -/
def Size.segments (z : Size) : Nat := 8192 * z.bays

/-- Bays per Tube ring, m of R310 (R6). -/
def Size.ring (z : Size) : Nat := z.bays / 4

/-- Valid-bit pair offset (R6, R288). -/
def Size.pairOffset (z : Size) : Nat := z.bays / 2

/-- The product code 0x1018:02 (R3). -/
def Size.product (z : Size) : Nat := 0x4B5A0000 + z.bays * 256 + z.ports

/-- Group sizes k that a size allows: the divisors of its bays among those of R69 (R6). -/
def Size.groups (z : Size) : List Nat := [1, 2, 3, 4, 6, 8, 12, 16, 24].filter fun k => z.bays % k == 0

/-- Whether the size has the island of a number: those of bays and ports that it lacks name none (R309). -/
def Size.hasIsland (z : Size) (i : Nat) : Bool :=
  i < 8 * z.bays || (192 ≤ i && i < 216) || (216 ≤ i && i < 216 + z.ports)

/-- One client port. Lists of eight run over the virtual channels: normal REQ, RSP, FWD, COL, then escape of each. `covered` holds the
outbound credits of a channel that stood until an instant, those that later ones did not reach again (R56). -/
structure PortSt where
  linkDown : Bool := false
  up : Bool := false
  credits : List Nat := List.replicate 8 0
  covered : List (Nat × Nat × Nat) := []
  free : List Nat := List.replicate 8 0
  outq : List OutMsg := []
  discards : List Nat := []
  holds : List CreditHold := []
  deriving DecidableEq, Repr

/-- A request that waits in its port's pool under R52 or R96: its place in arrival order, since when,
and whether a SYNC left it out of the new sequence (R52). -/
structure HeldReq where
  id : Nat
  msg : Arrival
  at_ : Nat
  stale : Bool := false
  deriving DecidableEq, Repr

/-- The sequence state of a source (R52) or of a partner's FWR stream (R114): the next expected SEQ, the requests held
behind a gap, those that reached their turn and wait for their predecessor `last`, and when the last was answered. -/
structure SeqSt where
  key : SrcKey
  next : Option (BitVec 16) := none
  held : List HeldReq := []
  turn : List HeldReq := []
  last : Option Nat := none
  idleAt : Nat := 0
  deriving DecidableEq, Repr

/-- The kinds of request that pass Intake, and the block's own writes. -/
inductive ReqKind where
  | rd | wr | atom | admitReq | release | fence (kind : Nat) | tly (top : Nat) | ownerLost
  | contrib | push | fwrIn
  | tileWr (cid tile : Nat) | digestWr (cid tile : Nat)
  deriving DecidableEq, Repr

/-- Where a part of a request stands: waiting for the post of a write staged before it (R103), on its way to a bank queue, in it, at the
stack, at the Carrel, or finished. -/
inductive PartPhase where
  | behind | ingress | queued | stack | carrel | done
  deriving DecidableEq, Repr

/-- One granule of a request in flight: its hall offset in granules, its place (R72), its phase, the bytes read,
whether it read uncorrectable, the stored word a later post must not hide from it (R103), the full bank queue for which it
waits (R216), and whether the bay serves it, as it does not where a valid bit answers (R91, R264). -/
structure Part where
  gran : Nat
  bay : Nat
  pc : Nat
  loc : Nat
  phase : PartPhase := .done
  data : List Byte := []
  bad : Bool := false
  keep : Option (List Byte × Bool) := none
  waitBank : Option Nat := none
  there : Bool := false
  deriving DecidableEq, Repr

/-- How far a request has come: held at Franking, at Sorting, waiting for a valid-bit line (R289), for another's fill of a block (R291), or
for a line that another merge holds (R236); at its bays, staged (R102), or waiting for its mirror copy (R113). -/
inductive Stage where
  | franking | sorting | vbit (line : Nat) | fill (block : Nat) | line (line : Nat) | bay | staged | mirror
  deriving DecidableEq, Repr

/-- The time stamps of a registered item (R454 to R456), Registry cycles after Intake; none where not passed. -/
structure ItemStamp where
  t0 : Nat
  d1 : Option Nat := none
  d2 : Option Nat := none
  d3 : Option Nat := none
  d4 : Option Nat := none
  d5 : Option Nat := none
  bay : Nat := 31
  pc : Nat := 0
  chit : Bool := false
  deriving DecidableEq, Repr

/-- A tagged request whose record is not yet committed (R454, R455). -/
structure Tagged where
  port : Nat
  hdr : Hdr
  stamp : ItemStamp
  deriving DecidableEq, Repr

/-- A request in flight. `turn` is its place among the requests that have reached their turn (R95), `sortNo` among those that Sorting
has issued, `inAt` when it entered the ingress of its bays (R264), and `snap` what granules held before posts that came after its sort
time, while its valid bits are still undecided (R103). -/
structure Op where
  id : Nat
  kind : ReqKind
  msg : Arrival
  stage : Stage := .bay
  green : Bool := true
  conPassed : Bool := false
  heldAt : Nat := 0
  sortTime : Nat := 0
  turn : Nat := 0
  sortNo : Nat := 0
  inAt : Nat := 0
  snap : List (Nat × List Byte × Bool) := []
  parts : List Part := []
  await : List Nat := []
  bays : List Nat := []
  fills : List Nat := []
  posted : Option Nat := none
  old : W64 := 0
  status : BitVec 4 := 0
  inPool : Bool := false
  deriving DecidableEq, Repr

/-- A FENCE, or a value-changing TLY with ORD, that waits for covered requests (R104, R105). -/
structure Waiting where
  kind : ReqKind
  msg : Arrival
  covers : List Nat
  deriving DecidableEq, Repr

/-- A meter: of a class, or of a consignment (R251, R133). -/
inductive MeterKey where
  | cls (n : Nat)
  | con (cid : Nat)
  deriving DecidableEq, Repr

/-- The buckets of a meter in thousandths of a byte, when they were last filled, and its slot in the Sorting Frame. -/
structure Meter where
  key : MeterKey
  tc : Int
  tp : Int
  at_ : Nat
  slot : Option Nat := none
  deriving DecidableEq, Repr

/-- A lease held by a port-side island (R252): tokens in bytes and the time of the last use (R253). -/
structure Lease where
  bay : Nat
  key : MeterKey
  green : Nat
  yellow : Nat
  used : Nat
  deriving DecidableEq, Repr

/-- Franking (R249 to R272): meters that differ from full, leases, measured latencies, guarantee buckets and the guarantees in force
that are below the configured ones; `serving` is the slot that the wheel serves, while it does (R257). Space in use follows from the rest
of the state. -/
structure Frank where
  meters : List Meter := []
  leases : List Lease := []
  lat : Dict := []
  latSum : List (Nat × List Nat) := []
  gbucket : Dict := []
  gforce : Dict := []
  serving : Option Nat := none
  deriving DecidableEq, Repr

/-- The Collection Timetable (R260 to R263): the administrative list, sparse by index, the operational list of GATES and DURATION,
the committed list that waits, with its base time, and when it takes effect, the gates in force, and the network time of the last change applied. -/
structure Timetable where
  admin : List (Nat × Nat × Nat) := []
  oper : List (W64 × Nat) := []
  operBase : Nat := 0
  operCycle : Nat := 0
  waiting : Option (Nat × Nat × List (W64 × Nat)) := none
  effect : Nat := 0
  gates : W64 := BitVec.allOnes 64
  changed : Nat := 0
  deriving DecidableEq, Repr

/-- A Shelf List entry (R68) as its eight words. -/
structure Entry where
  e0 : W64 := 0x00001FE000000000#64
  e1 : W64 := 0
  e2 : W64 := 0
  e3 : W64 := 0
  e4 : W64 := 0
  e5 : W64 := 0
  e6 : W64 := 0
  e7 : W64 := 0
  deriving DecidableEq, Repr

/-- A commit between its keys and its commit cycle (R81, R84). -/
structure Commit where
  changes : List (Nat × Entry)
  validAt : Nat
  first : Option Bool := none
  drain : Option (Nat × List Nat) := none
  deriving DecidableEq, Repr

/-- The Shelf List, its stage buffer and the valid bits. `entries` and `stage` are sparse by index; `badLines` are the valid-bit lines lost in
both copies, `badCopies` the copies, of a line in a bay's store, found unreadable (R288, R292). -/
structure Shelf where
  entries : List (Nat × Entry) := []
  stage : List (Nat × Entry) := []
  load : List (Nat × Entry) := []
  commit : Option Commit := none
  lost : List Nat := []
  valid : List Nat := []
  regCache : List Nat := []
  isleCache : List (Nat × Nat) := []
  badLines : List Nat := []
  badCopies : List (Nat × Nat) := []
  deriving DecidableEq, Repr

/-- A line of a bay's Carrel cache region (R235): hall line number, masks of two bits, class of the last writer,
policy, whether its tile asked to drop it after write-back (R139), and its 64 bytes. -/
structure CLine where
  line : Nat
  gvalid : BitVec 2
  dirty : BitVec 2
  cls : Nat := 0
  pkt : Bool := false
  evict : Bool := false
  used : Nat := 0
  data : List Byte
  deriving DecidableEq, Repr

/-- A hard-fault entry (R303). -/
structure HardFault where
  bay : Nat
  pc : Nat
  gaddr : Nat
  sym : Nat
  band : Nat
  load : Nat
  count : Nat := 0
  first : Nat
  deriving DecidableEq, Repr

/-- Stored data: stack bytes by hall offset, check symbols that are not those of the stored bytes (raw words of R300),
marked granules by hall granule number (R282), Carrel lines, Carrel test lines, the hard-fault table, and the symbols corrected at the last Shelf Reading of a granule (R294). -/
structure Mem where
  stack : List Host.Cell := []
  chk : List (Nat × BitVec 32) := []
  marked : List Nat := []
  carrel : List CLine := []
  testLines : List (Nat × List Byte) := []
  hard : List HardFault := []
  lastFix : List (Nat × Nat) := []
  deriving DecidableEq, Repr

/-- A copy of a completed tile to one destination (R153). -/
inductive CopySt where
  | waiting | sent | pushed (tag : BitVec 16) (partner : Nat) | dropped
  deriving DecidableEq, Repr

/-- An element's accumulator (R171, R176): empty, an fp32 or integer pattern, or an exact integer. -/
inductive Acc where
  | empty
  | bits (b : BitVec 32)
  | int (v : Int)
  deriving DecidableEq, Repr

/-- A contribution accepted and not yet applied: its bytes, its flags, and whether it adds nothing (R154). -/
structure Staged where
  data : List Byte
  short : Bool := false
  src : BitVec 20 := 0
  tag : BitVec 16 := 0
  deriving DecidableEq, Repr

/-- How far a tile has come. -/
inductive TilePhase where
  | open_ | posting | posted | finished
  deriving DecidableEq, Repr

/-- A tile that has opened and still holds its slot (R145 to R157). `flags` as in R46; `applied` says that its accumulator has been written
(R182); `doneAt` is when its count was reached or it ended without (R155). -/
structure Tile where
  idx : Nat
  bay : Nat
  openedAt : Nat
  phase : TilePhase := .open_
  count : Nat := 0
  short : Bool := false
  staged : List Staged := []
  stagedAt : Nat := 0
  batches : List (List Staged) := []
  acc : List Acc := []
  accBad : List Nat := []
  applied : Bool := false
  flags : BitVec 4 := 0
  hashSum : Nat := 0
  status : BitVec 4 := 0
  out : List Byte := []
  doneAt : Nat := 0
  digest : Nat := 0
  copies : List CopySt := []
  slot : Bool := true
  left : Bool := false
  replayWait : List (Staged × Arrival) := []
  retrieved : Bool := false
  deriving DecidableEq, Repr

/-- A station's destination entry (R141). -/
structure Dest where
  push : Bool
  port : Nat
  daddr : Nat
  dstid : BitVec 20
  pcid : BitVec 12
  pcgen : BitVec 4
  tileofs : Nat
  deriving DecidableEq, Repr

/-- A route slip, parsed (R130 to R141). A station without a record is `none`, or its R132 default. -/
structure Slip where
  kind : Nat := 0
  ntiles : Nat := 0
  tsize : Nat := 0
  ctimeout : Nat := 0
  window : Nat := 0
  ctally : Option Nat := none
  ttally : Option Nat := none
  rcid : Nat := 0
  rcgen : BitVec 4 := 0
  cdom : BitVec 8 := 0
  srclo : Nat := 0
  srchi : Nat := 0xFFFFF
  crate : Nat := 0
  cburst : Nat := 0
  sorting : Option (Nat × Nat) := none
  retrieval : Option (Nat × Nat) := none
  ledger : Bool := false
  collating : Bool := false
  ifmt : Nat := 0
  ofmt : Nat := 0
  op : Nat := 0
  pscale : Int := 0
  count : Nat := 0
  l128 : Bool := false
  lscale : Int := 0
  shelving : Bool := false
  evict : Bool := false
  postmark : Option (Nat × List Nat) := none
  dests : List Dest := []
  deriving DecidableEq, Repr

/-- The lifecycle of a CID (05, R162). -/
inductive ConState where
  | admitting | active | draining
  deriving DecidableEq, Repr

/-- A consignment that is not free. `await` are the bays that have not confirmed (step 4 of R60), `map` the entries that
gave its tiles their home bays at admission, `closed` the tiles that are done with, `admNo` its place among the admissions of the run, `wd` the
digests of its weight segments (R404). For the next tile of a STREAM consignment, `streamAsk` is the place in request order of its lease
requests once one was refused, and `streamPast` how many of its two meters it has passed, the class meter with the colour `streamGreen` (R253, R258). -/
structure Con where
  cid : Nat
  state : ConState
  cgen : BitVec 4
  msg : Arrival
  slip : Slip
  bytes : List Byte
  ctns : Nat
  await : List Nat := []
  reserved : List Nat := []
  tiles : List Tile := []
  closed : List (Nat × BitVec 4) := []
  outcome : BitVec 4 := 0
  release : Option Arrival := none
  streamNext : Nat := 0
  streamAsk : Option Nat := none
  streamPast : Nat := 0
  streamGreen : Bool := true
  weightBad : Bool := false
  wd : List (List Byte) := []
  ctBound : Bool := true
  ttBound : Bool := true
  admNo : Nat := 0
  map : List (Nat × Entry) := []
  deriving DecidableEq, Repr

/-- What remains of a CID while it is free (R61, R162). -/
structure CidPast where
  cid : Nat
  cgen : BitVec 4
  outcome : BitVec 4 := 0
  kind : Nat := 0
  done : Nat := 0
  deriving DecidableEq, Repr

/-- The fields of a Tally (R187), and the instant for which it is armed, as Registry time (R208). -/
structure Tally where
  value : BitVec 32 := 0
  owner : BitVec 8 := 0
  oport : BitVec 6 := 0
  pbind : Bool := false
  state : BitVec 2 := 0
  wrap : Bool := false
  use_ : BitVec 2 := 0
  gen : BitVec 2 := 0
  armed : Bool := false
  releasing : Bool := false
  bound : Bool := false
  limit : BitVec 32 := 0xFFFFFFFF
  shadow : BitVec 32 := 0
  wtimeout : BitVec 16 := 0
  outcome : BitVec 4 := 0
  armtime : BitVec 32 := 0
  armAt : Option Nat := none
  late : Bool := false
  deriving DecidableEq, Repr

/-- What a waiter waits for (R193, R197). -/
inductive WaitFor where
  | ge (targ : BitVec 32)
  | eq (targ : BitVec 32)
  | gen (next : Bool)
  | handover
  deriving DecidableEq, Repr

/-- A waiting request (R193 to R195). -/
structure Waiter where
  id : Nat
  tally : Nat
  what : WaitFor
  deadline : Nat
  msg : Arrival
  deriving DecidableEq, Repr

/-- An entry of the Tally event log (R214). -/
structure TallyLog where
  lvalue : BitVec 32
  kind : Nat
  ltop : Nat
  lport : Nat
  ltally : Nat
  lsrcid : BitVec 20
  ltime : Nat
  deriving DecidableEq, Repr

/-- The Tallies that differ from reset, their waiters and their event log (newest first). -/
structure TallyUnit where
  tallies : List (Nat × Tally) := []
  waiters : List Waiter := []
  nextWaiter : Nat := 0
  log : List TallyLog := []
  deriving DecidableEq, Repr

/-- An FWR that the block sent, or that waits for a port, and that is not answered; `home` is the port that R113 gives it, `port` the one
that it left on; `again` says that it was answered RETRY and waits for a port to leave unchanged (R116). -/
structure SentFwr where
  tag : BitVec 16
  seq : BitVec 16
  sync : Bool
  home : Nat
  port : Nat
  op : Option Nat
  tile : Option (Nat × Nat)
  hdr : Hdr
  data : List Byte
  deadline : Nat
  sent : Bool := true
  again : Bool := false
  deriving DecidableEq, Repr

/-- The FWR sequence kept for a partner (R113, R115). -/
structure Partner where
  block : Nat
  nextSeq : BitVec 16 := 0
  nextTag : BitVec 16 := 0
  unanswered : List SentFwr := []
  needSync : Bool := true
  deriving DecidableEq, Repr

/-- An entry of a bank queue (R216); `cleaner` marks a write-back on which nothing waits (R237). -/
structure BankReq where
  op : Nat
  part : Nat
  pc : Nat
  bank : Nat
  row : Nat
  write : Bool := false
  cls : Nat
  prio : Nat
  green : Bool := true
  bytes : Nat := 32
  at_ : Nat
  aged : Bool := false
  cleaner : Bool := false
  deriving DecidableEq, Repr

/-- One bank of a PC: row, close counter, refresh debt, neighbour refreshes and the cycles of its last commands. `due` is when its next
refresh interval falls due (none: one interval after the bay began to count); `force` says that a forced REFpb waits, `counted` that the
interval which caused it is counted in `owed` (R226, R227). -/
structure Bank where
  pc : Nat
  bank : Nat
  row : Option Nat := none
  lastRow : Option Nat := none
  ctr : BitVec 2 := 2
  train : Bool := false
  streak : Nat := 0
  owed : Int := 0
  due : Option Nat := none
  counted : Bool := false
  at9 : Option Nat := none
  neigh : Nat := 0
  force : Bool := false
  forceNeigh : Bool := false
  act : Option Nat := none
  pre : Option Nat := none
  rdAt : Option Nat := none
  wrAt : Option Nat := none
  busy : Nat := 0
  extra : Nat := 0
  forced : Option Nat := none
  used : Nat := 0
  deriving DecidableEq, Repr

/-- What a PC's command selection remembers (R217 to R227); `rowAt` is the cycle of its last row command, and `taken` says that the data of
Shelf Reading occupy its next slot (R452). -/
structure PcSt where
  pc : Nat
  drain : Bool := false
  rowAt : Option Nat := none
  acts : List (Nat × Nat) := []
  ref_ : Option (Nat × Nat) := none
  burst : Bool := false
  burstOff : Option Nat := none
  forcedTill : Nat := 0
  taken : Bool := false
  data : Dict := []
  deriving DecidableEq, Repr

/-- A calibration run of a PC (R321, R322, R326); `nextAt` is when its next window is due. -/
structure CalRun where
  pc : Nat
  began : Nat
  nextAt : Nat := 0
  windows : Nat := 0
  counts : List (List (Nat × Nat)) := []
  tries : Nat := 0
  deriving DecidableEq, Repr

/-- The sampling points of a PC's lanes in use and those they move to (R328): read and write, per lane, and the last step's time. -/
structure Slew where
  pc : Nat
  cur : List (Nat × Nat)
  goal : List (Nat × Nat)
  at_ : Nat := 0
  deriving DecidableEq, Repr

/-- Lane state of a PC (R296): erasure list, mask of remapped lanes, and spare lanes used. -/
structure PcLanes where
  pc : Nat
  erased : List Nat := []
  remapped : Nat := 0
  used : Nat := 0
  counts : List Nat := List.replicate 36 0
  recent : List (Nat × Nat) := []
  uncorr : List Nat := []
  proposed : Bool := false
  deriving DecidableEq, Repr

/-- A frequency shift or band swap of a bay (R241 to R245). -/
inductive ShiftSt where
  | none | awaiting | shifting | swapping
  deriving DecidableEq, Repr

/-- Scheduling state of a bay. The active timing set is that of `point` and `relaxed`; `shadow` is what the shadow set holds, as OP × 2 +
RELAXED (R241). `refFrom` is when its banks began to count refresh intervals, `refInt` the length of the first (R225). -/
structure Sched where
  cycle : Nat := 0
  lfsr : BitVec 64 := 1
  queue : List BankReq := []
  banks : List Bank := []
  pcs : List PcSt := []
  setB : Bool := false
  relaxed : Bool := false
  point : Nat := 0
  shift : ShiftSt := .none
  want : Option Nat := none
  shadow : Nat := 0
  shiftAt : Nat := 0
  swapWanted : Bool := false
  grantedAt : Nat := 0
  maxOwed : Nat := 0
  refFrom : Nat := 0
  refInt : Nat := 3900
  ingressHold : Nat := 0
  deriving DecidableEq, Repr

/-- Thermal state of a bay (R342 to R358). `thermal` is coded as 0x2200+n:10; comparator bytes as 0x2200+n:15. -/
structure Thermal where
  thermal : Nat := 1
  level : Nat := 0
  inLadder : Bool := false
  ladderAt : Nat := 0
  comps : List (BitVec 8) := List.replicate 7 0
  readings : List Int := List.replicate 6 0
  stale : BitVec 8 := 0
  poll : Int := 0
  polledAt : Nat := 0
  cause : Nat := 0
  coolAt : Nat := 0
  converting : List Nat := []
  deriving DecidableEq, Repr

/-- Repair and fence state of a bay (R360 to R388); `onDie` says that the stack's on-die ECC is enabled (R278), `storePcs` are the PCs that
hold its valid-bit store (R288), and `storeBad` says that the store was lost with the stack's power (R356). -/
structure Repair where
  fence : Nat := 0
  island : Bool := true
  state : Nat := 0
  reason : Nat := 0
  capacity : Nat := 0
  onDie : Bool := false
  storePcs : BitVec 64 := 0
  storeBad : Bool := false
  pcsOut : BitVec 64 := 0
  withdrawing : BitVec 64 := 0
  withdrawn : BitVec 64 := 0
  declared : List Nat := []
  raised : List (Nat × Nat) := []
  lanes : BitVec 5 := 0x1F
  lanesLost : Nat := 0
  trips : List Nat := []
  score : Nat := 1000
  health : Nat := 0
  badSince : Option Nat := none
  goodSince : Option Nat := none
  carrel : Nat := 0
  deriving DecidableEq, Repr

/-- Training state of a bay (R296, R321 to R334), with the spare lanes that its stack reports for each PC. Records are keyed by PC × 6 + set; sets are numbered OP × 2 + RELAXED. -/
structure Training where
  records : List (Nat × BitVec 512) := []
  carrelRec : List Byte := []
  runs : List CalRun := []
  requested : List Nat := []
  slews : List Slew := []
  window : Option (Nat × Nat) := none
  lastRun : List (Nat × Nat) := []
  eye : List (Nat × List Nat) := []
  carrelTemp : Int := 0
  lanes : List PcLanes := []
  carrelErased : List Nat := []
  spares : Nat := 0
  deriving DecidableEq, Repr

/-- What a pass of Shelf Reading has read: a granule, a Carrel line or a line of the store (R293). -/
inductive ScrubItem where
  | granule (g : Nat) | line (l : Nat) | store (l : Nat)
  deriving DecidableEq, Repr

/-- Integrity evidence of a bay (R293, R299): bins of seven counts, and the Shelf Reading pass: when it began and what it has read. -/
structure Evidence where
  bins : List (List Nat) := List.replicate 12 (List.replicate 7 0)
  passBegan : Nat := 0
  passRead : List ScrubItem := []
  deriving DecidableEq, Repr

/-- The limits that the governor and the hardware limiter of a bay hold it to, in thousandths of the full rates (R29, R30), and the
Carrel lines and lane cycles of the window so far. -/
structure Power where
  carrelCap : Nat := 1000
  collCap : Nat := 1000
  limiter : Bool := false
  carrelUsed : Nat := 0
  collUsed : Nat := 0
  deriving DecidableEq, Repr

/-- One Stack Bay. -/
structure Bay where
  sched : Sched := {}
  therm : Thermal := {}
  repair : Repair := {}
  train : Training := {}
  power : Power := {}
  evid : Evidence := {}
  deriving DecidableEq, Repr

/-- A Registry output that waits for the twins' comparison (R16, R18): an answer on a port, the verdict of a Catalogue access, or a
frame or interrupt on a bus. -/
inductive HeldOut where
  | msg (a : Arrival) (h : Hdr) (data : List Byte)
  | cat (k : Sess) (a : Option Arrival) (abort : Nat) (value : List Byte)
  | bus (w : Wire)
  deriving DecidableEq, Repr

/-- The Registry twins and the Tube (R16 to R24, R370, R371). `held` are the outputs held while the twins' outputs differ; `latency` is
the CRC of the crossing latencies recorded at alignment (R312). -/
structure Twins where
  state : Nat := 0
  disputed : Bool := false
  held : List HeldOut := []
  rejoin : Nat := 0
  rejoinFails : List Nat := [0, 0]
  links : BitVec 64 := 0
  hubs : List Nat := []
  roster : BitVec 264 := 0
  aligned : Bool := false
  latency : Nat := 0
  nextGrant : Nat := 0
  deriving DecidableEq, Repr

/-- Bring-up, pins and rails (R304 to R308, R466, R471). `held` is the reset state, `brst` says that BRST_N is released; `image` and
`pendingImage` are the firmware image written so far and the one that waits for the next bring-up (R372). -/
structure Boot where
  code : Nat := 1
  step : Nat := 1
  held : Bool := true
  brst : Bool := false
  failStep : Nat := 0
  failReason : Nat := 0
  failWhere : Nat := 0
  t0 : Nat := 0
  stepAt : Nat := 0
  lastMs : Nat := 0
  testen : Bool := false
  vaux : Bool := true
  vddr : Bool := true
  railBad : List (Nat × BayRail) := []
  refclk : Bool := true
  refLostAt : Nat := 0
  pwren : BitVec 24 := 0
  slowReq : Bool := false
  fwVer : Option (BitVec 32) := none
  image : List Byte := []
  pendingImage : Option (List Byte) := none
  deriving DecidableEq, Repr

/-- The time-of-day input (R210): 0 unlocked, 1 locked, 2 holdover; network time is `now + offset`. -/
structure Tod where
  state : Nat := 0
  offset : Int := 0
  deriving DecidableEq, Repr

/-- A Daybook record, words D0 to D3 (R398, R399). -/
structure DayRec where
  d0 : W64
  d1 : W64
  d2 : W64
  d3 : W64
  deriving DecidableEq, Repr

/-- A Daybook stream (R397): its records, oldest first, the next DSEQ, the one that was next when the run began, and whether it halted. -/
structure Stream where
  recs : List DayRec := []
  next : Nat := 0
  runFrom : Nat := 0
  halted : Bool := false
  deriving DecidableEq, Repr

/-- Daybook, replay, pause and Postmark state (R392 to R411). -/
structure Day where
  streams : List Stream := List.replicate 25 {}
  admissions : Nat := 0
  loaded : List (Nat × List DayRec) := []
  loadedFlags : Nat := 0
  armed : Bool := false
  pos : Dict := []
  diverged : List (Nat × Nat × DayRec) := []
  maps : List (Nat × Nat × Nat) := []
  matched : List (Nat × Nat) := []
  freed : List (Nat × Nat) := []
  pausedAt : Option Nat := none
  selfTest : List Byte := List.replicate 32 0
  checkpoint : List Byte := []
  deriving DecidableEq, Repr

/-- A Catalogue session (R420 to R422, R440). `sel` holds its selections by object key, `evWait` the deadlines of the event reads that
wait, each with its message when it came in-band. -/
structure Session where
  key : Sess
  priv : Nat := 0
  chal : BitVec 64 := 0
  used : Nat := 0
  bad : Nat := 0
  lockTill : Nat := 0
  sel : Dict := []
  evPtr : Nat := 0
  evLost : Nat := 0
  evWait : List (Nat × Option Arrival) := []
  sampleAt : Nat := 0
  deriving DecidableEq, Repr

/-- The Data Port (R434 to R437). `opened` is the target of the open transfer, `whole` says that it is judged at its close. -/
structure DataPort where
  holder : Option Sess := none
  target : Nat := 0
  opened : Nat := 0
  whole : Bool := false
  addr : Nat := 0
  dir : Nat := 0
  burst : Nat := 4096
  content : List Byte := []
  length : Nat := 0
  used : Nat := 0
  refused : Bool := false
  deriving DecidableEq, Repr

/-- A management event (R438). -/
structure MgmtEvent where
  eseq : Nat
  etime : Nat
  ecode : Nat
  ebay : Nat
  eaux : Nat
  earg : Nat
  deriving DecidableEq, Repr

/-- The event queue, newest first (R438, R440). -/
structure Events where
  queue : List MgmtEvent := []
  next : Nat := 0
  lastEmcy : Option Nat := none
  lastIbi : Option Nat := none
  deriving DecidableEq, Repr

/-- An SDO transfer of a CAN FD channel (R430); `wait` while an upload waits for an event (R440). -/
structure Sdo where
  up : Bool
  wait : Bool := false
  block : Bool
  index : Nat
  sub : Nat
  buf : List Byte
  size : Nat
  toggle : Bool := false
  blk : Nat := 127
  segNo : Nat := 0
  sent : Nat := 0
  crc : Bool := false
  ending : Bool := false
  unused : Nat := 0
  at_ : Nat
  deriving DecidableEq, Repr

/-- CAN FD and I3C (R429 to R432), with the straps as read at release of BRST_N. -/
structure Buses where
  nodeId : Nat := 0
  rates : Nat := 0
  i3cStatic : Nat := 0
  sdo : List (Nat × Sdo) := []
  lastBeat : Nat := 0
  i3cDyn : Nat := 0
  i3cEvents : Bool := true
  i3cMwl : Nat := 4102
  i3cMrl : Nat := 4103
  i3cAnswer : Option (Nat × Nat × List Byte) := none
  deriving DecidableEq, Repr

/-- A circulation counter's count and sticky overflow (R446). -/
structure Ctr where
  count : Nat := 0
  ovf : Bool := false
  deriving DecidableEq, Repr

/-- Counters, registered items, Jostle and test access (R442 to R468). -/
structure Test where
  ctrs : List (Nat × Ctr) := []
  frozen : Option Nat := none
  items : List (List W64) := []
  itemLfsr : List (Nat × BitVec 64) := []
  tagged : List Tagged := []
  jostleAt : Option Nat := none
  jostleGen : List (Nat × BitVec 64) := []
  jostleEnded : List Nat := []
  ir : BitVec 8 := 0x01
  wrapper : BitVec 9 := 0
  bayReg : BitVec 5 := 0
  bypassBit : Bool := false
  wirInstr : Nat := 0
  pins : List Bool := []
  deriving DecidableEq, Repr

/-- Health of the block (R384, R385), when its scores were last computed and its sensors last scheduled for reading (R344), and the order
challenge of R381. -/
structure Health where
  at_ : Nat := 0
  sensedAt : Nat := 0
  state : Nat := 0
  badSince : Option Nat := none
  goodSince : Option Nat := none
  challenge : BitVec 64 := 0
  deriving DecidableEq, Repr

/-- The state of the block. -/
structure State where
  /-- The commands that wait, first in first out. -/
  pending : List Instr := []
  /-- The size of the block. -/
  size : Size := .kz24
  now : Nat := 0
  runStart : Nat := 0
  free : Nat := 0
  nextId : Nat := 0
  wire : List Wire := []
  objs : Dict := []
  keys : Dict := []
  boot : Boot := {}
  tod : Tod := {}
  twins : Twins := {}
  ports : List PortSt := List.replicate size.ports {}
  seqs : List SeqSt := []
  ops : List Op := []
  waits : List Waiting := []
  frank : Frank := {}
  table : Timetable := {}
  shelf : Shelf := {}
  mem : Mem := {}
  cons : List Con := []
  past : List CidPast := []
  tal : TallyUnit := {}
  partners : List Partner := []
  bays : List Bay := List.replicate size.bays {}
  day : Day := {}
  sessions : List Session := []
  dport : DataPort := {}
  events : Events := {}
  buses : Buses := {}
  test : Test := {}
  health : Health := {}
  deriving DecidableEq, Repr

/-- Why the block's model stops. -/
inductive Fault where
  /-- Raised by a message that arrives on a port in service and has more flits than the sender can hold credits for.
  R40 forbids the sender to send it, and the spec gives the block no behaviour. Safe: the hardware may go on. -/
  | portPoolOverrun (port : Nat)
  deriving DecidableEq, Repr

/-- Why a command has no meaning. -/
inductive Refusal where
  /-- Raised by an arm of `exec` whose command has no meaning yet. Safe. -/
  | notModelled (mnemonic : String)
  deriving DecidableEq, Repr

/-- The block right after reset: BRST_N still asserted, every rail good, every object at its Default (R424). -/
def State.reset : State := {}

end Sys2Proof.Machine
end

