-- ==== Sys2Proof/Machine/Arith.lean ====
section
/-! DEFINITION. Collation arithmetic: element layout, decoding, float and Ledger accumulation, output conversion
(R163 to R180). -/

namespace Sys2Proof.Machine

/-- A decoded element (R167): NaN, an infinity, or (−1)^s × m × 2^e; `neg` is the sign. -/
inductive Dec where
  | nan
  | inf (neg : Bool)
  | fin (neg : Bool) (m : Nat) (e : Int)
  deriving DecidableEq, Repr

/-- Exponent bits, mantissa bits and bias of a floating-point element format (R167); formats numbered as R137, with MX
formats under their element format. -/
def floatFmt (f : Nat) : Nat × Nat × Nat :=
  if f = 0 then (8, 23, 127) else if f = 1 then (8, 7, 127) else if f = 2 then (5, 10, 15)
  else if f = 3 || f = 5 then (4, 3, 7) else if f = 4 || f = 6 then (5, 2, 15)
  else if f = 7 then (2, 3, 1) else if f = 8 then (3, 2, 3) else (2, 1, 1)

/-- Bits of an element of a format (R137, R166). -/
def elemBits (f : Nat) : Nat :=
  if f = 0 || f = 10 then 32 else if f = 1 || f = 2 then 16 else if f = 7 || f = 8 then 6 else if f = 9 then 4
  else if f = 12 then 64 else if f = 13 then 128 else 8

/-- Element bytes of R137, for the formats that are not MX. -/
def elemBytes (f : Nat) : Nat := elemBits f / 8

/-- Decodes a floating-point code (R167). -/
def decodeFloat (f code : Nat) : Dec :=
  let (eb, p, bias) := floatFmt f
  let neg := bit code (eb + p)
  let x := code / 2 ^ p % 2 ^ eb
  let m := code % 2 ^ p
  let top := x == 2 ^ eb - 1
  if top && (f ≤ 2 || f = 4 || f = 6) then (if m = 0 then .inf neg else .nan)
  else if top && (f = 3 || f = 5) && m = 7 then .nan
  else if x = 0 then .fin neg m (1 - (bias : Int) - p)
  else .fin neg (m + 2 ^ p) ((x : Int) - bias - p)

/-- Decodes an element that is not MX (R167); a raw accumulator counts units of 2^LSCALE. -/
def decodeElem (f : Nat) (lscale : Int) (code : Nat) : Dec :=
  if f ≤ 9 then decodeFloat f code
  else
    let v := signed (elemBits f) code
    .fin (v < 0) v.natAbs (if 12 ≤ f then lscale else 0)

/-- Decodes an MX element under its block's scale byte (R168). -/
def decodeMx (f scale code : Nat) : Dec :=
  if scale = 255 then .nan
  else match decodeFloat f code with
    | .fin s m e => .fin s m (e + scale - 127)
    | d => d

/-- Block bytes BB of an MX format (R164). -/
def mxBytes (f : Nat) : Nat := if f ≤ 6 then 32 else if f ≤ 8 then 24 else 16

/-- The largest NB with 32 × ceil(NB ÷ 32) + NB × BB ≤ T, searched downwards from `n` (R164). -/
def mxBlocks (bb t : Nat) : Nat → Nat
  | 0 => 0
  | n + 1 => if 32 * ceilDiv (n + 1) 32 + (n + 1) * bb ≤ t then n + 1 else mxBlocks bb t n

/-- The element count E of a tile of T bytes (R163 to R165). -/
def elemCount (f t : Nat) : Nat :=
  if 5 ≤ f && f ≤ 9 then 32 * mxBlocks (mxBytes f) t (t / mxBytes f) else t / elemBytes f

/-- Cuts bytes into `k` little-endian numbers of `n` bytes. -/
def leWords (n : Nat) : Nat → List Byte → List Nat
  | 0, _ => []
  | k + 1, bs => ofBytes (bs.take n) :: leWords n k (bs.drop n)

/-- The elements of MX block `j` (R164, R166). -/
def mxBlock (f : Nat) (tile : List Byte) (j : Nat) : List Dec :=
  let bb := mxBytes f
  let frame := tile.drop (j / 32 * (32 + 32 * bb))
  let scale := (frame.getD (j % 32) 0).toNat
  let v := ofBytes ((frame.drop (32 + j % 32 * bb)).take bb)
  let w := elemBits f
  (List.range 32).map fun l => decodeMx f scale (v / 2 ^ (w * l) % 2 ^ w)

/-- The decoded elements of an input tile, in element order (R163 to R168). -/
def tileElems (f : Nat) (lscale : Int) (tile : List Byte) : List Dec :=
  if 5 ≤ f && f ≤ 9 then (List.range (mxBlocks (mxBytes f) tile.length (tile.length / mxBytes f))).flatMap (mxBlock f tile)
  else (leWords (elemBytes f) (elemCount f tile.length) tile).map (decodeElem f lscale)

/-- The raw bits of an input tile's elements (R173, R176: bitwise operations). -/
def tileRaw (f : Nat) (tile : List Byte) : List Nat := leWords (elemBytes f) (elemCount f tile.length) tile

/-- Bits needed to write a number. -/
def bitLen (m : Nat) : Nat := if m = 0 then 0 else Nat.log2 m + 1

/-- m × 2^k, or m ÷ 2^−k rounded to nearest, ties to even. -/
def shiftRne (m : Nat) (k : Int) : Nat :=
  if 0 ≤ k then m * 2 ^ k.toNat
  else
    let sh := (-k).toNat
    let v := m / 2 ^ sh
    let rem := m % 2 ^ sh
    if 2 ^ (sh - 1) < rem || (rem = 2 ^ (sh - 1) && v % 2 = 1) then v + 1 else v

/-- The largest finite code of an output format, without its sign (R178). -/
def maxFinite (f : Nat) : Nat :=
  let (eb, p, _) := floatFmt f
  if f = 3 then 0x7E else (2 ^ eb - 1) * 2 ^ p - 1

/-- The code of an overflow: an infinity, or ±448 for E4M3 (R178). -/
def overflowCode (f : Nat) : Nat :=
  let (eb, p, _) := floatFmt f
  if f = 3 then 0x7E else (2 ^ eb - 1) * 2 ^ p

/-- The canonical NaN of an output format (R179). -/
def canonNan (f : Nat) : Nat :=
  if f = 0 then 0x7FC00000 else if f = 1 then 0x7FC0 else if f = 2 then 0x7E00 else if f = 3 then 0x7F else 0x7E

/-- Rounds an exact value to a float format, to nearest even, subnormals kept (R178; IEEE 754-2019). -/
def encodeFloat (f : Nat) (d : Dec) : Nat :=
  let (eb, p, bias) := floatFmt f
  let sgn (neg : Bool) (c : Nat) : Nat := (if neg then 2 ^ (eb + p) else 0) + c
  match d with
  | .nan => canonNan f
  | .inf s => sgn s (overflowCode f)
  | .fin s m e =>
    if m = 0 then sgn s 0
    else
      let top := e + bitLen m - 1
      let emin : Int := 1 - (bias : Int)
      let quantum := max top emin - p
      let c := shiftRne m (e - quantum)
      let x := (max top emin - emin).toNat
      let code := x * 2 ^ p + c
      sgn s (if maxFinite f < code then overflowCode f else code)

/-- Addition in binary32 (R171, R173). -/
def fpAdd (a b : Nat) : Nat :=
  match decodeFloat 0 a, decodeFloat 0 b with
  | .nan, _ => canonNan 0
  | _, .nan => canonNan 0
  | .inf s, .inf t => if s = t then a else canonNan 0
  | .inf _, _ => a
  | _, .inf _ => b
  | .fin s m e, .fin t n g =>
    let q := min e g
    let x : Int := (m * 2 ^ (e - q).toNat : Nat)
    let y : Int := (n * 2 ^ (g - q).toNat : Nat)
    let v := (if s then -x else x) + (if t then -y else y)
    if v = 0 then encodeFloat 0 (.fin (s && t) 0 0) else encodeFloat 0 (.fin (v < 0) v.natAbs q)

/-- A code's place in the order of R173: −0 below +0. NaN has none. -/
def fpOrder (a : Nat) : Int := if bit a 31 then -(a % 2 ^ 31 : Nat) - 1 else (a : Nat)

/-- Maximum or minimum in binary32 (R173). -/
def fpExtreme (isMax : Bool) (a b : Nat) : Nat :=
  match decodeFloat 0 a, decodeFloat 0 b with
  | .nan, _ => canonNan 0
  | _, .nan => canonNan 0
  | _, _ => if (fpOrder a < fpOrder b) = isMax then b else a

/-- A float-mode contribution as fp32 (R172). -/
def toFp32 (pscale : Int) (op : Nat) (d : Dec) : Nat :=
  let c := encodeFloat 0 d
  if op = 6 then
    match decodeFloat 0 c with
    | .fin s m e => encodeFloat 0 (.fin s m (e + pscale))
    | d' => encodeFloat 0 d'
  else c

/-- Bitwise operations 3, 4 and 5 (R137). -/
def bitOp (op a b : Nat) : Nat := if op = 3 then a &&& b else if op = 4 then a ||| b else a ^^^ b

/-- Flags of a tile (R46): SHORT, UNCORR, SATURATED, INVALID. -/
abbrev flShort : BitVec 4 := 8
abbrev flUncorr : BitVec 4 := 4
abbrev flSaturated : BitVec 4 := 2
abbrev flInvalid : BitVec 4 := 1

/-- The bound B of a Ledger tile (R174). -/
def ledgerBound (w count : Nat) : Nat := (2 ^ (w - 1) - 1) / count

/-- The conversion of a Ledger contribution (R174, R175): the integer and the flags it sets; none for a NaN. -/
def ledgerConvert (w count : Nat) (pscale lscale : Int) (d : Dec) : Option Int × BitVec 4 :=
  let b := ledgerBound w count
  let sg (s : Bool) (v : Nat) : Int := if s then -(v : Int) else v
  match d with
  | .nan => (none, flInvalid)
  | .inf s => (some (sg s b), flSaturated)
  | .fin s m e =>
    if m = 0 then (some 0, 0)
    else
      let k := e + pscale - lscale
      if 0 ≤ k && (w : Int) - 1 < bitLen m + k then (some (sg s b), flSaturated)
      else
        let v := shiftRne m k
        if b < v then (some (sg s b), flSaturated) else (some (sg s v), 0)

/-- Accumulator width of a record (R144). -/
def Slip.width (p : Slip) : Nat := if p.l128 then 128 else 64

/-- Bytes of an accumulator element, A of R144. -/
def Slip.accBytes (p : Slip) : Nat := if p.ledger then p.width / 8 else 4

/-- Tile size in bytes (R130). -/
def Slip.tileBytes (p : Slip) : Nat := 512 * 2 ^ p.tsize

/-- Elements of a tile (R163, R164). -/
def Slip.elems (p : Slip) : Nat := elemCount p.ifmt p.tileBytes

/-- Bytes of an output tile (R163); a STREAM or ACCESS tile is its tile size. -/
def Slip.outBytes (p : Slip) : Nat := if p.collating then p.elems * elemBytes p.ofmt else p.tileBytes

/-- The operation is bitwise (R137). -/
def Slip.bitwise (p : Slip) : Bool := 3 ≤ p.op && p.op ≤ 5

/-- Combines one float-mode element with its accumulator (R171 to R173). -/
def floatStep (p : Slip) (acc : Acc) (d : Dec) (raw : Nat) : Acc :=
  let c := if p.bitwise then raw
    else if p.ifmt ≤ 9 then toFp32 p.pscale p.op d
    else match d with
      | .fin s m _ => unsigned 32 (if s then -(m : Int) else m)
      | _ => 0
  match acc with
  | .bits a =>
    let a := a.toNat
    .bits (BitVec.ofNat 32 (
      if p.bitwise then bitOp p.op a c
      else if p.ifmt ≤ 9 then (if p.op = 1 || p.op = 2 then fpExtreme (p.op = 1) a c else fpAdd a c)
      else if p.op = 1 || p.op = 2 then (if (signed 32 a < signed 32 c) = (p.op = 1) then c else a)
      else a + c))
  | _ => .bits (BitVec.ofNat 32 c)

/-- Combines one Ledger element with its accumulator (R174 to R176). -/
def ledgerStep (p : Slip) (acc : Acc) (d : Dec) (raw : Nat) : Acc × BitVec 4 :=
  if p.bitwise then
    match acc with
    | .bits a => (.bits (BitVec.ofNat 32 (bitOp p.op a.toNat raw)), 0)
    | _ => (.bits (BitVec.ofNat 32 raw), 0)
  else
    let r := ledgerConvert p.width p.count p.pscale p.lscale d
    match r.1 with
    | none => (acc, r.2)
    | some v =>
      match acc with
      | .int a => (.int (if p.op = 1 then max a v else if p.op = 2 then min a v else a + v), r.2)
      | _ => (.int v, r.2)

/-- The accumulators of a tile that has just opened (R171, R176). -/
def Slip.freshAcc (p : Slip) : List Acc :=
  List.replicate p.elems (if p.ledger && (p.op = 0 || p.op = 6) then .int 0 else .empty)

/-- Applies one contribution to a tile's accumulators, with the sticky flags it sets (R171, R176, R180). -/
def applyContribution (p : Slip) (acc : List Acc) (data : List Byte) : List Acc × BitVec 4 :=
  let ds := tileElems p.ifmt p.lscale data
  let raws := if p.bitwise then tileRaw p.ifmt data else ds.map fun _ => 0
  let steps := List.zipWith (fun (a : Acc) (x : Dec × Nat) =>
    if p.ledger then ledgerStep p a x.1 x.2
    else (floatStep p a x.1 x.2, if x.1 = .nan then flInvalid else 0)) acc (ds.zip raws)
  (steps.map (·.1), steps.foldl (fun f x => f ||| x.2) 0)

/-- Saturates an integer to a two's-complement range (R178). -/
def clampInt (n : Nat) (v : Int) : Int := max (-(2 ^ (n - 1) : Nat)) (min v ((2 ^ (n - 1) : Nat) - 1))

/-- A float code with the sign of a zero dropped (R178: in Ledger mode a zero result is +0). -/
def plusZero (f code : Nat) : Nat :=
  let (eb, p, _) := floatFmt f
  if code % 2 ^ (eb + p) = 0 then 0 else code

/-- The output code of one element (R178, R179). -/
def outElem (p : Slip) (acc : Acc) : Nat :=
  if p.bitwise then (match acc with | .bits a => a.toNat % 2 ^ elemBits p.ofmt | _ => 0)
  else if p.ledger then
    match acc with
    | .int v =>
      if 12 ≤ p.ofmt then unsigned (elemBits p.ofmt) v
      else if 10 ≤ p.ofmt then
        let r : Int := shiftRne v.natAbs p.lscale
        unsigned (elemBits p.ofmt) (clampInt (elemBits p.ofmt) (if v < 0 then -r else r))
      else plusZero p.ofmt (encodeFloat p.ofmt (.fin (v < 0) v.natAbs p.lscale))
    | _ => canonNan p.ofmt
  else
    match acc with
    | .bits a =>
      if p.ifmt ≤ 9 then encodeFloat p.ofmt (decodeFloat 0 a.toNat)
      else unsigned (elemBits p.ofmt) (clampInt (elemBits p.ofmt) (signed 32 a.toNat))
    | _ => 0

/-- The output tile (R163, R178): E elements of OFMT, little-endian. `bad` lists elements that enter the conversion as zero
(R286). -/
def outTile (p : Slip) (acc : List Acc) (bad : List Nat) : List Byte :=
  let acc := acc.mapIdx fun i a => if bad.contains i then (if p.ledger && !p.bitwise then .int 0 else .bits 0) else a
  acc.flatMap fun a => toBytes (elemBytes p.ofmt) (outElem p a)

/-- Status of a tile whose count was reached (R54, R152). -/
def flagStatus (f : BitVec 4) : BitVec 4 :=
  if f &&& flUncorr ≠ 0 then 5 else if f &&& flSaturated ≠ 0 then 0xA else if f &&& flInvalid ≠ 0 then 0xB else 0

end Sys2Proof.Machine
end

