-- ==== Sys2Proof/Config.lean ====
section
/-! DEFINITION. What an implementation fixes, and the free values: constants without a body, so that no proof can see what they are. -/

namespace Sys2Proof.Config

/-- Draws of the block's entropy source, and every other value the spec leaves open: draw number `n` (log 3). -/
opaque freeValue : Nat → BitVec 64

/-- The flits that Tube hubs forward in traffic number `n` of a kind: 0 an arriving message, 1 a departing one, 2 the cycles that pass
(R444, event 0x0140): the spec gives no routes (log 41). -/
opaque hubFlits : Nat → Nat → Nat

/-- The lookup of request `n` at Sorting misses the cache of its island (R35, R444, event 0x0110): the spec gives no cache (log 41). -/
opaque lookupMiss : Nat → Bool

/-- The set of a bay's Carrel, among `n`, in which a hall line stands (R235: the spec gives sets and no index; log 48). -/
opaque carrelSet : Nat → Nat → Nat

/-- The line within the Carrel at which a bay's training region begins (R234, R286, R300: the spec gives no place; log 48). -/
opaque trainingBase : Nat

/-- The PC of a bay's store that holds a valid-bit line (R288: the spec gives no place within the store; log 48). -/
opaque storePc : Nat → Nat → Nat

/-- Serial number 0x1018:04, "set at manufacture" (R2). -/
opaque serial : BitVec 32

/-- The manufacturer identity fused into IDCODE[11:1] (R465). -/
opaque manufacturer : BitVec 11

/-- The key digest fused at manufacture, SHA-384 (R319, R421). -/
opaque keyDigest : BitVec 384

/-- The fused minimum security version (R319). -/
opaque minSvn : BitVec 32

/-- The I3C provisional ID 0x1F20:01 (R431, "from fuses"). -/
opaque i3cPid : BitVec 64

end Sys2Proof.Config
end

