-- ==== Sys2Proof/Machine/Objects.lean ====
section
/-! DEFINITION. The object dictionary of Catalogue revision 2.1: one row per object or run of objects of the tables in spec/ (R415). -/

namespace Sys2Proof.Machine

/-- The access kinds of R418. -/
inductive Access where
  | ro | rw | wo | cnst
  deriving DecidableEq, Repr

/-- One row of an object table: indices `i0` to `i1`, sub-indices `s0` to `s1`, size in bytes (R416), access, Default,
lowest and highest value (no highest: the whole type), the bits that are not reserved, one more value admitted,
the privilege a write needs (0 Operator, 1 Service, 2 Factory), whether the Clerk may write it (R377), and whether
each session holds its own (R422). -/
structure ObjDef where
  i0 : Nat
  i1 : Nat
  s0 : Nat
  s1 : Nat
  size : Nat
  acc : Access
  dflt : Nat
  lo : Nat
  hi : Option Nat
  mask : Option Nat
  alt : Option Nat
  priv : Nat
  clerk : Bool
  sel : Bool
  deriving DecidableEq, Repr

/-- Objects of 0x10xx. -/
def Objects.rows0 : List ObjDef := [
  ⟨0x1000, 0x1000, 0, 0, 4, .cnst, 0x2010000, 0, none, none, none, 1, false, false⟩, -- 0x1000:00 Device type (R2)
  ⟨0x1008, 0x1008, 0, 0, 64, .cnst, 0x34325a4b206e657a7479724b, 0, none, none, none, 1, false, false⟩, -- 0x1008:00 Device name (R2)
  ⟨0x1009, 0x1009, 0, 0, 64, .cnst, 0x312e32, 0, none, none, none, 1, false, false⟩, -- 0x1009:00 Hardware version (R2)
  ⟨0x100a, 0x100a, 0, 0, 64, .ro, 0, 0, none, none, none, 1, false, false⟩, -- 0x100A:00 Firmware version (R2)
  ⟨0x1018, 0x1018, 0, 0, 1, .cnst, 4, 0, none, none, none, 1, false, false⟩, -- 0x1018:00 Identity, highest sub-index (R2)
  ⟨0x1018, 0x1018, 1, 1, 4, .cnst, 0x4a4f52, 0, none, none, none, 1, false, false⟩, -- 0x1018:01 Vendor ID (R2)
  ⟨0x1018, 0x1018, 2, 2, 4, .cnst, 0x4b5a1830, 0, none, none, none, 1, false, false⟩, -- 0x1018:02 Product code (R2)
  ⟨0x1018, 0x1018, 3, 3, 4, .cnst, 0x20001, 0, none, none, none, 1, false, false⟩, -- 0x1018:03 Revision number (R2)
  ⟨0x1018, 0x1018, 4, 4, 4, .cnst, 0, 0, none, none, none, 1, false, false⟩ -- 0x1018:04 Serial number (R2)
]

/-- Objects of 0x20xx. -/
def Objects.rows1 : List ObjDef := [
  ⟨0x2020, 0x2020, 0, 0, 1, .cnst, 4, 0, none, none, none, 1, false, false⟩, -- 0x2020:00 Highest sub-index (R33)
  ⟨0x2020, 0x2020, 1, 1, 2, .rw, 0x280, 0, none, none, none, 1, false, false⟩, -- 0x2020:01 Power envelope (Service) (R33)
  ⟨0x2020, 0x2020, 2, 2, 2, .ro, 0, 0, none, none, none, 1, false, false⟩, -- 0x2020:02 Estimated power, last 10 µs window (R33)
  ⟨0x2020, 0x2020, 3, 3, 1, .ro, 0, 0, none, none, none, 1, false, false⟩, -- 0x2020:03 Governor limiting (R33)
  ⟨0x2020, 0x2020, 4, 4, 4, .ro, 0, 0, none, none, none, 1, false, false⟩, -- 0x2020:04 Hardware limiter engagements since reset (R33)
  ⟨0x2030, 0x2030, 0, 0, 1, .cnst, 4, 0, none, none, none, 1, false, false⟩, -- 0x2030:00 Highest sub-index (R34)
  ⟨0x2030, 0x2030, 1, 1, 1, .ro, 0, 0, none, none, none, 1, false, false⟩, -- 0x2030:01 Twin state (R34)
  ⟨0x2030, 0x2030, 2, 2, 4, .ro, 0, 0, none, none, none, 1, false, false⟩, -- 0x2030:02 Switchovers since reset (R34)
  ⟨0x2030, 0x2030, 3, 3, 4, .ro, 0, 0, none, none, none, 1, false, false⟩, -- 0x2030:03 Re-executed disagreements resolved (R34)
  ⟨0x2030, 0x2030, 4, 4, 1, .ro, 0, 0, none, none, none, 1, false, false⟩, -- 0x2030:04 Twin placement (R34)
  ⟨0x2031, 0x2031, 0, 0, 1, .cnst, 2, 0, none, none, none, 1, false, false⟩, -- 0x2031:00 Highest sub-index (R34)
  ⟨0x2031, 0x2031, 1, 1, 8, .ro, 0, 0, none, none, none, 1, false, false⟩, -- 0x2031:01 Failed Tube links, one bit per link (R34)
  ⟨0x2031, 0x2031, 2, 2, 4, .ro, 0, 0, none, none, none, 1, false, false⟩, -- 0x2031:02 Reroutes since reset (R34)
  ⟨0x2040, 0x2040, 0, 0, 1, .cnst, 0x30, 0, none, none, none, 1, false, false⟩, -- 0x2040:00 Highest sub-index (R62)
  ⟨0x2040, 0x2040, 1, 48, 4, .rw, 1, 0, none, some 0x7, none, 1, false, false⟩, -- 0x2040:01–0x2040:30 Port n−1 configuration (R62)
  ⟨0x2041, 0x2041, 0, 0, 1, .cnst, 3, 0, none, none, none, 1, false, false⟩, -- 0x2041:00 Highest sub-index (R62)
  ⟨0x2041, 0x2041, 1, 1, 2, .rw, 0x14, 0, none, none, none, 1, false, false⟩, -- 0x2041:01 Ordering timeout (R62)
  ⟨0x2041, 0x2041, 2, 2, 2, .rw, 2, 0, none, none, none, 1, false, false⟩, -- 0x2041:02 Escape threshold (R62)
  ⟨0x2041, 0x2041, 3, 3, 4, .ro, 0, 0, none, none, none, 1, false, false⟩, -- 0x2041:03 Header flits discarded under R43 (R62)
  ⟨0x2002, 0x2002, 0, 0, 2, .rw, 0, 0, some 4095, none, none, 1, false, false⟩ -- 0x2002:00 Block number, 0–4,095 (R65)
]

/-- Objects of 0x24xx. -/
def Objects.rows2 : List ObjDef := [
  ⟨0x2400, 0x2400, 0, 0, 1, .cnst, 0x10, 0, none, none, none, 1, false, false⟩, -- 0x2400:00 Highest sub-index (R92)
  ⟨0x2400, 0x2400, 1, 1, 2, .ro, 0, 0, none, none, none, 1, false, false⟩, -- 0x2400:01 Stage records loaded (R92)
  ⟨0x2400, 0x2400, 2, 2, 1, .wo, 0, 1, some 2, none, none, 1, true, false⟩, -- 0x2400:02 Stage control (R92)
  ⟨0x2400, 0x2400, 3, 3, 1, .ro, 0, 0, none, none, none, 1, false, false⟩, -- 0x2400:03 Stage status (R92)
  ⟨0x2400, 0x2400, 4, 4, 4, .ro, 0, 0, none, none, none, 1, false, false⟩, -- 0x2400:04 First failing stage record or entry index (R92)
  ⟨0x2400, 0x2400, 5, 5, 1, .ro, 0, 0, none, none, none, 1, false, false⟩, -- 0x2400:05 Failure reason (R92)
  ⟨0x2400, 0x2400, 6, 6, 4, .ro, 0, 0, none, none, none, 1, false, false⟩, -- 0x2400:06 Commit key; zero unless stage status is 2 (R92)
  ⟨0x2400, 0x2400, 7, 7, 4, .wo, 0, 0, none, none, none, 1, true, false⟩, -- 0x2400:07 Commit, first key write (R92)
  ⟨0x2400, 0x2400, 8, 8, 4, .wo, 0, 0, none, none, none, 1, false, false⟩, -- 0x2400:08 Commit, second key write (R92)
  ⟨0x2400, 0x2400, 9, 9, 4, .ro, 0, 0, none, none, none, 1, false, false⟩, -- 0x2400:09 Commit serial last drawn, by a completed commit, the end of  (R92)
  ⟨0x2400, 0x2400, 10, 10, 4, .rw, 0, 0, some 196607, none, none, 1, false, true⟩, -- 0x2400:0A Entry read index, 0–196,607 (R92)
  ⟨0x2400, 0x2400, 11, 11, 64, .ro, 0, 0, none, none, none, 1, false, false⟩, -- 0x2400:0B Entry read value (R92)
  ⟨0x2400, 0x2400, 12, 12, 1, .rw, 4, 1, some 25, none, none, 1, false, false⟩, -- 0x2400:0C Move bandwidth share, 1–25 (R92)
  ⟨0x2400, 0x2400, 13, 13, 4, .ro, 0, 0, none, none, none, 1, false, false⟩, -- 0x2400:0D Groups in state moving (R92)
  ⟨0x2400, 0x2400, 14, 14, 2, .rw, 0x32, 10, some 1000, none, none, 1, false, false⟩, -- 0x2400:0E Commit drain timeout, 10–1,000 (R92)
  ⟨0x2400, 0x2400, 15, 15, 4, .ro, 0, 0, none, none, none, 1, false, false⟩, -- 0x2400:0F Lost-data events since reset (R92)
  ⟨0x2400, 0x2400, 16, 16, 8, .ro, 0, 0, none, none, none, 1, false, false⟩ -- 0x2400:10 First hall address of the last lost range (R92)
]

/-- Objects of 0x20xx. -/
def Objects.rows3 : List ObjDef := [
  ⟨0x2050, 0x2050, 0, 0, 1, .cnst, 5, 0, none, none, none, 1, false, false⟩, -- 0x2050:00 Highest sub-index (R126)
  ⟨0x2050, 0x2050, 1, 1, 2, .rw, 0x64, 10, some 10000, none, none, 1, false, false⟩, -- 0x2050:01 Mirror timeout, 10–10,000 (R126)
  ⟨0x2050, 0x2050, 2, 2, 4, .ro, 0, 0, none, none, none, 1, false, false⟩, -- 0x2050:02 Mirror timeouts since reset (R116) (R126)
  ⟨0x2050, 0x2050, 3, 3, 8, .ro, 0, 0, none, none, none, 1, false, false⟩, -- 0x2050:03 First hall address of the last mirror timeout (R126)
  ⟨0x2050, 0x2050, 4, 4, 4, .ro, 0, 0, none, none, none, 1, false, false⟩, -- 0x2050:04 Writes and tiles posted across a fence cycle (R122) (R126)
  ⟨0x2050, 0x2050, 5, 5, 4, .ro, 0, 0, none, none, none, 1, false, false⟩, -- 0x2050:05 Requests answered FENCED since reset (R126)
  ⟨0x2060, 0x2060, 0, 0, 1, .cnst, 7, 0, none, none, none, 1, false, false⟩, -- 0x2060:00 Highest sub-index (R162)
  ⟨0x2060, 0x2060, 1, 1, 2, .ro, 0, 0, none, none, none, 1, false, false⟩, -- 0x2060:01 Active consignments (R162)
  ⟨0x2060, 0x2060, 2, 2, 4, .rw, 0x186a0, 100, some 6553500, none, none, 1, false, false⟩, -- 0x2060:02 Default consignment timeout, 100–6,553,500 (R162)
  ⟨0x2060, 0x2060, 3, 3, 2, .rw, 0, 0, some 4095, none, none, 0, false, true⟩, -- 0x2060:03 Query CID, 0–4,095 (R162)
  ⟨0x2060, 0x2060, 4, 4, 8, .ro, 0, 0, none, none, none, 1, false, false⟩, -- 0x2060:04 Query result (R162)
  ⟨0x2060, 0x2060, 5, 5, 4, .ro, 0, 0, none, none, none, 1, false, false⟩, -- 0x2060:05 Contributions answered EXCESS since reset (R162)
  ⟨0x2060, 0x2060, 6, 6, 4, .ro, 0, 0, none, none, none, 1, false, false⟩, -- 0x2060:06 Tiles completed SHORT since reset (R162)
  ⟨0x2060, 0x2060, 7, 7, 4, .ro, 0, 0, none, none, none, 1, false, false⟩, -- 0x2060:07 Dispatch copies dropped under R155 since reset (R162)
  ⟨0x2070, 0x2070, 0, 0, 1, .cnst, 6, 0, none, none, none, 1, false, false⟩, -- 0x2070:00 Highest sub-index (R186)
  ⟨0x2070, 0x2070, 1, 1, 2, .rw, 6, 1, some 1500, none, none, 1, false, false⟩, -- 0x2070:01 Coalescing window, 1–1,500 (R186)
  ⟨0x2070, 0x2070, 2, 2, 1, .rw, 8, 1, some 8, none, none, 1, false, false⟩, -- 0x2070:02 Batch limit, 1–8 (R186)
  ⟨0x2070, 0x2070, 3, 3, 4, .ro, 0, 0, none, none, none, 1, false, false⟩, -- 0x2070:03 Tiles completed with SATURATED since reset (R186)
  ⟨0x2070, 0x2070, 4, 4, 4, .ro, 0, 0, none, none, none, 1, false, false⟩, -- 0x2070:04 Tiles completed with INVALID since reset (R186)
  ⟨0x2070, 0x2070, 5, 5, 4, .ro, 0, 0, none, none, none, 1, false, false⟩, -- 0x2070:05 Lane substitutions since reset (R184) (R186)
  ⟨0x2070, 0x2070, 6, 6, 24, .ro, 0x1f, 0, none, none, none, 1, false, false⟩ -- 0x2070:06 Lanes in service (R186)
]

/-- Objects of 0x28xx. -/
def Objects.rows4 : List ObjDef := [
  ⟨0x2800, 0x2800, 0, 0, 1, .cnst, 0xf, 0, none, none, none, 1, false, false⟩, -- 0x2800:00 Highest sub-index (R215)
  ⟨0x2800, 0x2800, 1, 1, 2, .rw, 0, 0, some 16383, none, none, 1, false, true⟩, -- 0x2800:01 Tally select, 0–16,383 (R215)
  ⟨0x2800, 0x2800, 2, 2, 32, .ro, 0, 0, none, none, none, 1, false, false⟩, -- 0x2800:02 State of the selected Tally, T0 to T3 (R215)
  ⟨0x2800, 0x2800, 3, 3, 4, .wo, 0, 0, none, none, none, 1, false, false⟩, -- 0x2800:03 Debugger set of VALUE (R212) (R215)
  ⟨0x2800, 0x2800, 4, 4, 1, .wo, 0, 1, some 1, none, none, 1, false, false⟩, -- 0x2800:04 Forced free of the selected Tally (R215)
  ⟨0x2800, 0x2800, 5, 5, 4, .wo, 0, 0, some 5, none, none, 1, false, false⟩, -- 0x2800:05 Create shared (R215)
  ⟨0x2800, 0x2800, 6, 6, 2, .rw, 0x2710, 1, none, none, none, 1, false, false⟩, -- 0x2800:06 Default wait timeout, 1–65,535 (R215)
  ⟨0x2800, 0x2800, 7, 7, 2, .ro, 0, 0, none, none, none, 1, false, false⟩, -- 0x2800:07 Tallies owned, shared included (R215)
  ⟨0x2800, 0x2800, 8, 8, 2, .ro, 0, 0, none, none, none, 1, false, false⟩, -- 0x2800:08 Tallies orphaned (R215)
  ⟨0x2800, 0x2800, 9, 9, 4, .ro, 0, 0, none, none, none, 1, false, false⟩, -- 0x2800:09 Waiter slots in use (R215)
  ⟨0x2800, 0x2800, 10, 10, 4, .ro, 0, 0, none, none, none, 1, false, false⟩, -- 0x2800:0A UNDERFLOW and client OVERFLOW refusals since reset (R215)
  ⟨0x2800, 0x2800, 11, 11, 4, .ro, 0, 0, none, none, none, 1, false, false⟩, -- 0x2800:0B Block signals refused or discarded since reset (R192, R212) (R215)
  ⟨0x2800, 0x2800, 12, 12, 4, .ro, 0, 0, none, none, none, 1, false, false⟩, -- 0x2800:0C Debugger sets and forced frees since reset (R215)
  ⟨0x2800, 0x2800, 13, 13, 1, .ro, 0, 0, none, none, none, 1, false, false⟩, -- 0x2800:0D Time-of-day input (R215)
  ⟨0x2800, 0x2800, 14, 14, 4, .wo, 0, 0, none, none, none, 1, false, false⟩, -- 0x2800:0E Set LIMIT of the selected Tally (R213) (R215)
  ⟨0x2800, 0x2800, 15, 15, 2, .wo, 0, 0, none, none, none, 1, false, false⟩, -- 0x2800:0F Set WTIMEOUT of the selected Tally (R213) (R215)
  ⟨0x2801, 0x2801, 0, 0, 1, .cnst, 3, 0, none, none, none, 1, false, false⟩, -- 0x2801:00 Highest sub-index (R215)
  ⟨0x2801, 0x2801, 1, 1, 4, .ro, 0, 0, none, none, none, 1, false, false⟩, -- 0x2801:01 Entries written since reset (R215)
  ⟨0x2801, 0x2801, 2, 2, 1, .rw, 0, 0, none, none, none, 1, false, true⟩, -- 0x2801:02 Log read index, 0–255, 0 the newest (R215)
  ⟨0x2801, 0x2801, 3, 3, 16, .ro, 0, 0, none, none, none, 1, false, false⟩ -- 0x2801:03 Log entry at the read index, L0 and L1 (R215)
]

/-- Objects of 0x21xx. -/
def Objects.rows5 : List ObjDef := [
  ⟨0x2100, 0x2117, 0, 0, 1, .cnst, 0xd, 0, none, none, none, 1, false, false⟩, -- 0x2100+n:00 Highest sub-index (R247)
  ⟨0x2100, 0x2117, 1, 1, 2, .rw, 0x3e8, 100, some 10000, none, none, 1, true, false⟩, -- 0x2100+n:01 Age cap, 100–10,000 (R247)
  ⟨0x2100, 0x2117, 2, 2, 1, .rw, 0x10, 1, some 64, none, none, 1, true, false⟩, -- 0x2100+n:02 Row-hit streak limit, 1–64 (R247)
  ⟨0x2100, 0x2117, 3, 3, 2, .rw, 0x1f4, 16, some 4096, none, none, 1, true, false⟩, -- 0x2100+n:03 Row idle limit, 16–4,096 (R247)
  ⟨0x2100, 0x2117, 4, 4, 2, .rw, 0x30, 8, some 256, none, none, 1, true, false⟩, -- 0x2100+n:04 Write drain high watermark per PC, 8–256 (R247)
  ⟨0x2100, 0x2117, 5, 5, 2, .rw, 0x10, 0, some 255, none, none, 1, true, false⟩, -- 0x2100+n:05 Write drain low watermark per PC, 0–255 (R247)
  ⟨0x2100, 0x2117, 6, 6, 1, .rw, 8, 0, some 8, none, none, 1, true, false⟩, -- 0x2100+n:06 Postponement limit P in a real-time burst, 0–8 (R247)
  ⟨0x2100, 0x2117, 7, 7, 1, .rw, 4, 0, some 4, none, none, 1, true, false⟩, -- 0x2100+n:07 Pull-in limit L, 0–4 (R247)
  ⟨0x2100, 0x2117, 8, 8, 2, .rw, 0x1f4, 100, some 5000, none, none, 1, true, false⟩, -- 0x2100+n:08 Burst hold, 100–5,000 (R247)
  ⟨0x2100, 0x2117, 9, 9, 1, .rw, 0xb, 8, some 14, none, none, 1, true, false⟩, -- 0x2100+n:09 Neighbour refresh exponent L, 8–14 (R247)
  ⟨0x2100, 0x2117, 10, 10, 2, .rw, 0x800, 256, some 2048, none, none, 1, true, false⟩, -- 0x2100+n:0A Accumulator ceiling, 256–2,048 (R247)
  ⟨0x2100, 0x2117, 11, 11, 1, .rw, 0x19, 5, some 75, none, none, 1, true, false⟩, -- 0x2100+n:0B Cleaner dirty share, 5–75 (R247)
  ⟨0x2100, 0x2117, 12, 12, 1, .rw, 0, 0, some 2, none, none, 1, true, false⟩, -- 0x2100+n:0C Operating point request (R247)
  ⟨0x2100, 0x2117, 13, 13, 2, .rw, 0x3e8, 0, some 10000, none, none, 1, true, false⟩ -- 0x2100+n:0D Shift deferral limit, 0–10,000 (R247)
]

/-- Objects of 0x22xx. -/
def Objects.rows6 : List ObjDef := [
  ⟨0x2200, 0x2217, 0, 0, 1, .cnst, 0x2b, 0, none, none, none, 1, false, false⟩, -- 0x2200+n:00 Highest sub-index (R248)
  ⟨0x2200, 0x2217, 32, 32, 1, .ro, 0, 0, none, none, none, 1, false, false⟩, -- 0x2200+n:20 Operating point in use (R248)
  ⟨0x2200, 0x2217, 33, 33, 1, .ro, 0, 0, none, none, none, 1, false, false⟩, -- 0x2200+n:21 Active timing set (R248)
  ⟨0x2200, 0x2217, 34, 34, 1, .ro, 0, 0, none, none, none, 1, false, false⟩, -- 0x2200+n:22 Shift state (R248)
  ⟨0x2200, 0x2217, 35, 35, 4, .ro, 0, 0, none, none, none, 1, false, false⟩, -- 0x2200+n:23 Shifts and band swaps since reset (R248)
  ⟨0x2200, 0x2217, 36, 36, 2, .ro, 0, 0, none, none, none, 1, false, false⟩, -- 0x2200+n:24 Duration of the last shift or swap (R248)
  ⟨0x2200, 0x2217, 37, 37, 4, .ro, 0, 0, none, none, none, 1, false, false⟩, -- 0x2200+n:25 Forced refreshes and forced neighbour refreshes since reset (R248)
  ⟨0x2200, 0x2217, 38, 38, 1, .ro, 0, 0, none, none, none, 1, false, false⟩, -- 0x2200+n:26 Largest owed count of any bank since reset (R248)
  ⟨0x2200, 0x2217, 39, 39, 4, .ro, 0, 0, none, none, none, 1, false, false⟩, -- 0x2200+n:27 Refresh limiter engagements since reset (R228) (R248)
  ⟨0x2200, 0x2217, 40, 40, 8, .ro, 0, 0, none, none, none, 1, false, false⟩, -- 0x2200+n:28 Neighbour refreshes since reset (R248)
  ⟨0x2200, 0x2217, 41, 41, 8, .ro, 0, 0, none, none, none, 1, false, false⟩, -- 0x2200+n:29 Narrow writes with a stack read since reset (R236) (R248)
  ⟨0x2200, 0x2217, 42, 42, 2, .ro, 0, 0, none, none, none, 1, false, false⟩, -- 0x2200+n:2A Accumulator bytes reserved (R248)
  ⟨0x2200, 0x2217, 43, 43, 2, .ro, 0x928, 0, none, none, none, 1, false, false⟩ -- 0x2200+n:2B Deliverable stack bandwidth D (R246) (R248)
]

/-- Objects of 0x26xx. -/
def Objects.rows7 : List ObjDef := [
  ⟨0x2600, 0x263f, 0, 0, 1, .cnst, 0x15, 0, none, none, none, 1, false, false⟩, -- 0x2600+n:00 Highest sub-index (R274)
  ⟨0x2600, 0x263f, 1, 1, 4, .rw, 3, 0, none, some 0x1f, none, 1, false, false⟩, -- 0x2600+n:01 Control (R274)
  ⟨0x2600, 0x263f, 2, 2, 1, .rw, 0, 0, some 61, none, none, 1, false, false⟩, -- 0x2600+n:02 Static priority, 0–61; const 63 for class 0 (R274)
  ⟨0x2600, 0x263f, 3, 3, 2, .rw, 0, 0, none, none, none, 1, false, false⟩, -- 0x2600+n:03 Latency target, 0 for none (R274)
  ⟨0x2600, 0x263f, 4, 4, 1, .rw, 0x32, 10, some 95, none, none, 1, false, false⟩, -- 0x2600+n:04 Ramp start, 10–95 (R274)
  ⟨0x2600, 0x263f, 5, 5, 1, .rw, 0x3d, 0, some 61, none, none, 1, false, false⟩, -- 0x2600+n:05 Ramp cap, from the static priority to 61 (R274)
  ⟨0x2600, 0x263f, 6, 6, 4, .rw, 0, 0, some 49152000, none, none, 1, false, false⟩, -- 0x2600+n:06 CIR, 0–49,152,000 (R274)
  ⟨0x2600, 0x263f, 7, 7, 2, .rw, 0x80, 0, some 16384, none, none, 1, false, false⟩, -- 0x2600+n:07 CBS, 0–16,384 (R274)
  ⟨0x2600, 0x263f, 8, 8, 4, .rw, 0, 0, some 49152000, none, none, 1, false, false⟩, -- 0x2600+n:08 PIR, 0–49,152,000; 0 unmetered (R274)
  ⟨0x2600, 0x263f, 9, 9, 2, .rw, 0x80, 128, some 16384, none, none, 1, false, false⟩, -- 0x2600+n:09 PBS, 128–16,384 (R274)
  ⟨0x2600, 0x263f, 10, 10, 2, .rw, 0, 0, some 2560, none, none, 1, false, false⟩, -- 0x2600+n:0A Guarantee G, 0–2,560 (R274)
  ⟨0x2600, 0x263f, 11, 11, 2, .rw, 0, 0, some 40960, none, none, 1, false, false⟩, -- 0x2600+n:0B Pigeonhole minimum, 0–40,960 (R274)
  ⟨0x2600, 0x263f, 12, 12, 2, .rw, 0xa000, 64, some 40960, none, none, 1, false, false⟩, -- 0x2600+n:0C Pigeonhole ceiling, 64–40,960 (R274)
  ⟨0x2600, 0x263f, 13, 13, 2, .rw, 0, 0, some 3584, none, none, 1, false, false⟩, -- 0x2600+n:0D Carrel minimum, 0–3,584 (R274)
  ⟨0x2600, 0x263f, 14, 14, 2, .rw, 0xe00, 1, some 3584, none, none, 1, false, false⟩, -- 0x2600+n:0E Carrel ceiling, 1–3,584 (R274)
  ⟨0x2600, 0x263f, 15, 15, 4, .ro, 0, 0, none, none, none, 1, false, false⟩, -- 0x2600+n:0F Measured latency, highest over bays (R274)
  ⟨0x2600, 0x263f, 16, 16, 8, .ro, 0, 0, none, none, none, 1, false, false⟩, -- 0x2600+n:10 Green bytes since reset (R274)
  ⟨0x2600, 0x263f, 17, 17, 8, .ro, 0, 0, none, none, none, 1, false, false⟩, -- 0x2600+n:11 Yellow bytes since reset (R274)
  ⟨0x2600, 0x263f, 18, 18, 8, .ro, 0, 0, none, none, none, 1, false, false⟩, -- 0x2600+n:12 Red messages answered RETRY since reset (R274)
  ⟨0x2600, 0x263f, 19, 19, 8, .ro, 0, 0, none, none, none, 1, false, false⟩, -- 0x2600+n:13 Messages held for meter or gate since reset (R274)
  ⟨0x2600, 0x263f, 20, 20, 4, .ro, 0, 0, none, none, none, 1, false, false⟩, -- 0x2600+n:14 Tp now; negative is debt (R274)
  ⟨0x2600, 0x263f, 21, 21, 2, .ro, 0, 0, none, none, none, 1, false, false⟩ -- 0x2600+n:15 Lowest guarantee in force over bays (R274)
]

/-- Objects of 0x20xx. -/
def Objects.rows8 : List ObjDef := [
  ⟨0x2080, 0x2080, 0, 0, 1, .cnst, 9, 0, none, none, none, 1, false, false⟩, -- 0x2080:00 Highest sub-index (R275)
  ⟨0x2080, 0x2080, 1, 1, 1, .rw, 0x10, 4, some 128, none, none, 1, false, false⟩, -- 0x2080:01 Lease quantum, 4–128 (R275)
  ⟨0x2080, 0x2080, 2, 2, 2, .ro, 0, 0, none, none, none, 1, false, false⟩, -- 0x2080:02 Sorting Frame entries in use (R275)
  ⟨0x2080, 0x2080, 3, 3, 8, .ro, 0, 0, none, none, none, 1, false, false⟩, -- 0x2080:03 Classes with a reduced guarantee, bit c for class c (R275)
  ⟨0x2080, 0x2080, 4, 4, 48, .ro, 0x271027102710271027102710271027102710271027102710271027102710271027102710271027102710271027102710, 0, none, none, none, 1, false, false⟩, -- 0x2080:04 f per bay (R275)
  ⟨0x2080, 0x2080, 5, 5, 2, .ro, 0, 0, none, none, none, 1, false, false⟩, -- 0x2080:05 Sum of configured guarantees (R275)
  ⟨0x2080, 0x2080, 6, 6, 2, .ro, 0x928, 0, none, none, none, 1, false, false⟩, -- 0x2080:06 Lowest D of any bay not fenced (R275)
  ⟨0x2080, 0x2080, 7, 7, 4, .ro, 0, 0, none, none, none, 1, false, false⟩, -- 0x2080:07 VT lag behind the Registry clock (R275)
  ⟨0x2080, 0x2080, 8, 8, 8, .ro, 0, 0, none, none, none, 1, false, false⟩, -- 0x2080:08 Lease fetches since reset (R275)
  ⟨0x2080, 0x2080, 9, 9, 4, .ro, 0, 0, none, none, none, 1, false, false⟩ -- 0x2080:09 Missed-guarantee and restored events since reset (R275)
]

/-- Objects of 0x27xx. -/
def Objects.rows9 : List ObjDef := [
  ⟨0x2700, 0x2700, 0, 0, 1, .cnst, 0xd, 0, none, none, none, 1, false, false⟩, -- 0x2700:00 Highest sub-index (R276)
  ⟨0x2700, 0x2700, 1, 1, 1, .rw, 0, 0, some 1, none, none, 1, false, false⟩, -- 0x2700:01 Enable (R276)
  ⟨0x2700, 0x2700, 2, 2, 8, .rw, 0, 0, none, none, none, 1, false, false⟩, -- 0x2700:02 Administrative base time (R276)
  ⟨0x2700, 0x2700, 3, 3, 4, .rw, 0xf4240, 1000, some 1000000000, none, none, 1, false, false⟩, -- 0x2700:03 Administrative cycle time, 1,000–1,000,000,000 (R276)
  ⟨0x2700, 0x2700, 4, 4, 2, .rw, 1, 1, some 256, none, none, 1, false, false⟩, -- 0x2700:04 Administrative list length, 1–256 (R276)
  ⟨0x2700, 0x2700, 5, 5, 1, .wo, 0, 1, some 1, none, none, 1, false, false⟩, -- 0x2700:05 Commit (R276)
  ⟨0x2700, 0x2700, 6, 6, 1, .ro, 0, 0, none, none, none, 1, false, false⟩, -- 0x2700:06 Status (R276)
  ⟨0x2700, 0x2700, 7, 7, 8, .ro, 0, 0, none, none, none, 1, false, false⟩, -- 0x2700:07 Operational base time (R276)
  ⟨0x2700, 0x2700, 8, 8, 4, .ro, 0, 0, none, none, none, 1, false, false⟩, -- 0x2700:08 Operational cycle time (R276)
  ⟨0x2700, 0x2700, 9, 9, 2, .ro, 0, 0, none, none, none, 1, false, false⟩, -- 0x2700:09 Operational list length (R276)
  ⟨0x2700, 0x2700, 10, 10, 1, .rw, 0, 0, none, none, none, 1, false, true⟩, -- 0x2700:0A Entry select, 0–255 (R276)
  ⟨0x2700, 0x2700, 11, 11, 16, .rw, 0xffffffffffffffff, 0, none, some 0xffffffffffffffffffffffff, none, 1, false, false⟩, -- 0x2700:0B Administrative entry at the select, G0 and G1 (R276)
  ⟨0x2700, 0x2700, 12, 12, 16, .ro, 0, 0, none, none, none, 1, false, false⟩, -- 0x2700:0C Operational entry at the select (R276)
  ⟨0x2700, 0x2700, 13, 13, 4, .ro, 0, 0, none, none, none, 1, false, false⟩ -- 0x2700:0D Commits refused since reset (R276)
]

/-- Objects of 0x2Cxx. -/
def Objects.rows10 : List ObjDef := [
  ⟨0x2c00, 0x2c00, 0, 0, 1, .cnst, 0xd, 0, none, none, none, 1, false, false⟩, -- 0x2C00:00 Highest sub-index (R302)
  ⟨0x2c00, 0x2c00, 1, 1, 1, .rw, 0x18, 6, some 168, none, none, 1, false, false⟩, -- 0x2C00:01 Shelf Reading period, 6–168 (R302)
  ⟨0x2c00, 0x2c00, 2, 2, 2, .ro, 0, 0, none, none, none, 1, false, false⟩, -- 0x2C00:02 Progress of the current pass, lowest over bays, 0–10,000 (R302)
  ⟨0x2c00, 0x2c00, 3, 3, 4, .ro, 0, 0, none, none, none, 1, false, false⟩, -- 0x2C00:03 Shelf Reading passes completed since reset (R302)
  ⟨0x2c00, 0x2c00, 4, 4, 2, .rw, 0x40, 8, some 4096, none, none, 1, false, false⟩, -- 0x2C00:04 Lane threshold, 8–4,096 (R302)
  ⟨0x2c00, 0x2c00, 5, 5, 1, .rw, 4, 1, some 64, none, none, 1, false, false⟩, -- 0x2C00:05 Uncorrectable events per PC per 24 h before proposal, 1–64 (R302)
  ⟨0x2c00, 0x2c00, 6, 6, 8, .ro, 0, 0, none, none, none, 1, false, false⟩, -- 0x2C00:06 Answers carrying UNCORR since reset (R302)
  ⟨0x2c00, 0x2c00, 7, 7, 4, .ro, 0, 0, none, none, none, 1, false, false⟩, -- 0x2C00:07 Granules marked since reset (R302)
  ⟨0x2c00, 0x2c00, 8, 8, 4, .ro, 0, 0, none, none, none, 1, false, false⟩, -- 0x2C00:08 Narrow writes refused under R287 since reset (R302)
  ⟨0x2c00, 0x2c00, 9, 9, 8, .ro, 0, 0, none, none, none, 1, false, false⟩, -- 0x2C00:09 Valid-bit cache misses since reset (R302)
  ⟨0x2c00, 0x2c00, 10, 10, 4, .ro, 0, 0, none, none, none, 1, false, false⟩, -- 0x2C00:0A Valid-bit lines lost in both copies since reset (R302)
  ⟨0x2c00, 0x2c00, 11, 11, 4, .ro, 0, 0, none, none, none, 1, false, false⟩, -- 0x2C00:0B Hard-fault entries written since reset (R302)
  ⟨0x2c00, 0x2c00, 12, 12, 4, .ro, 0, 0, none, none, none, 1, false, false⟩, -- 0x2C00:0C PCs proposed for withdrawal since reset (R302)
  ⟨0x2c00, 0x2c00, 13, 13, 1, .wo, 0, 1, some 1, none, none, 1, false, false⟩, -- 0x2C00:0D Clear all evidence bins (R302)
  ⟨0x2c01, 0x2c01, 0, 0, 1, .cnst, 2, 0, none, none, none, 1, false, false⟩, -- 0x2C01:00 Highest sub-index (R302)
  ⟨0x2c01, 0x2c01, 1, 1, 2, .rw, 0, 0, some 4095, none, none, 1, false, true⟩, -- 0x2C01:01 Hard-fault read index, 0–4,095 (R302)
  ⟨0x2c01, 0x2c01, 2, 2, 16, .ro, 0, 0, none, none, none, 1, false, false⟩, -- 0x2C01:02 Hard-fault entry, H0 and H1 (R302)
  ⟨0x2c10, 0x2c10, 0, 0, 1, .cnst, 7, 0, none, none, none, 1, false, false⟩, -- 0x2C10:00 Highest sub-index (R302)
  ⟨0x2c10, 0x2c10, 1, 1, 1, .rw, 0, 0, some 23, none, none, 1, false, true⟩, -- 0x2C10:01 Bay select, 0–23 (R302)
  ⟨0x2c10, 0x2c10, 2, 2, 1, .rw, 0, 0, some 63, none, none, 1, false, true⟩, -- 0x2C10:02 PC select, 0–63 (R302)
  ⟨0x2c10, 0x2c10, 3, 3, 2, .rw, 0xff, 0, none, none, none, 1, false, false⟩, -- 0x2C10:03 Erasure list (R302)
  ⟨0x2c10, 0x2c10, 4, 4, 1, .ro, 0, 0, none, none, none, 1, false, false⟩, -- 0x2C10:04 Spare lanes free (R302)
  ⟨0x2c10, 0x2c10, 5, 5, 8, .ro, 0, 0, none, none, none, 1, false, false⟩, -- 0x2C10:05 Remapped lanes, bit i for lane i (R302)
  ⟨0x2c10, 0x2c10, 6, 6, 144, .ro, 0, 0, none, none, none, 1, false, false⟩, -- 0x2C10:06 Corrected symbols per lane, 36 × UNSIGNED32 (R302)
  ⟨0x2c10, 0x2c10, 7, 7, 4, .ro, 0xffffffff, 0, none, none, none, 1, false, false⟩, -- 0x2C10:07 Carrel erasure list of the bay (R302)
  ⟨0x2c20, 0x2c37, 0, 0, 1, .cnst, 0xc, 0, none, none, none, 1, false, false⟩, -- 0x2C20+n:00 Bay n bins, highest sub-index (R302)
  ⟨0x2c20, 0x2c37, 1, 12, 56, .ro, 0, 0, none, none, none, 1, false, false⟩, -- 0x2C20+n:01–0x2C20+n:0C Bay n, bin b−1 (R302)
  ⟨0x2c60, 0x2c60, 0, 0, 1, .cnst, 9, 0, none, none, none, 2, false, false⟩, -- 0x2C60:00 Highest sub-index (R302)
  ⟨0x2c60, 0x2c60, 1, 1, 1, .rw, 0, 0, some 1, none, none, 2, false, false⟩, -- 0x2C60:01 Checker test mode enable (R302)
  ⟨0x2c60, 0x2c60, 2, 2, 4, .rw, 0, 0, some 196607, none, none, 2, false, false⟩ -- 0x2C60:02 Test window, first segment index of the group (R302)
]

/-- Objects of 0x2Cxx. -/
def Objects.rows11 : List ObjDef := [
  ⟨0x2c60, 0x2c60, 3, 3, 1, .rw, 0, 0, some 1, none, none, 2, false, true⟩, -- 0x2C60:03 Target (R302)
  ⟨0x2c60, 0x2c60, 4, 4, 8, .rw, 0, 0, none, some 0x3fffffffffffe0, none, 2, false, true⟩, -- 0x2C60:04 Stack granule hall address, 32-byte aligned (R302)
  ⟨0x2c60, 0x2c60, 5, 5, 4, .rw, 0, 0, some 386138111, some 0x1f03ffff, none, 2, false, true⟩, -- 0x2C60:05 Carrel test line (R302)
  ⟨0x2c60, 0x2c60, 6, 6, 72, .rw, 0, 0, none, none, none, 2, false, false⟩, -- 0x2C60:06 Word (R302)
  ⟨0x2c60, 0x2c60, 7, 7, 1, .wo, 0, 1, some 3, none, none, 2, false, false⟩, -- 0x2C60:07 Action (R302)
  ⟨0x2c60, 0x2c60, 8, 8, 8, .rw, 0, 0, none, none, none, 2, false, false⟩, -- 0x2C60:08 Erasure mask for window decodes, bit i for symbol i (R302)
  ⟨0x2c60, 0x2c60, 9, 9, 8, .ro, 0, 0, none, none, none, 2, false, false⟩ -- 0x2C60:09 Last decode (R302)
]

/-- Objects of 0x20xx. -/
def Objects.rows12 : List ObjDef := [
  ⟨0x2000, 0x2000, 0, 0, 1, .cnst, 8, 0, none, none, none, 1, false, false⟩, -- 0x2000:00 Highest sub-index (R337)
  ⟨0x2000, 0x2000, 1, 1, 1, .ro, 1, 0, none, none, none, 1, false, false⟩, -- 0x2000:01 State (R337)
  ⟨0x2000, 0x2000, 2, 2, 1, .wo, 0, 1, some 2, none, none, 1, false, false⟩, -- 0x2000:02 Control (R337)
  ⟨0x2000, 0x2000, 3, 3, 1, .ro, 0, 0, none, none, none, 1, false, false⟩, -- 0x2000:03 Failing step, 0 for none (R337)
  ⟨0x2000, 0x2000, 4, 4, 1, .ro, 0, 0, none, none, none, 1, false, false⟩, -- 0x2000:04 Failure reason (R338) (R337)
  ⟨0x2000, 0x2000, 5, 5, 2, .ro, 0, 0, none, none, none, 1, false, false⟩, -- 0x2000:05 Island or bay of the failure (R337)
  ⟨0x2000, 0x2000, 6, 6, 4, .ro, 0, 0, none, none, none, 1, false, false⟩, -- 0x2000:06 Time from BRST_N release to the last completed step (R337)
  ⟨0x2000, 0x2000, 7, 7, 2, .rw, 0x78, 1, some 3600, none, none, 1, false, false⟩, -- 0x2000:07 Host wait timeout, 1–3,600 (R337)
  ⟨0x2000, 0x2000, 8, 8, 1, .rw, 0, 0, none, some 0x3, none, 1, false, false⟩, -- 0x2000:08 Warm start (R337)
  ⟨0x2010, 0x2010, 0, 0, 1, .cnst, 4, 0, none, none, none, 1, false, false⟩, -- 0x2010:00 Highest sub-index (R339)
  ⟨0x2010, 0x2010, 1, 1, 38, .rw, 0, 0, none, none, none, 1, false, false⟩, -- 0x2010:01 Die map (R339)
  ⟨0x2010, 0x2010, 2, 2, 1, .rw, 0, 0, some 2, none, none, 1, false, false⟩, -- 0x2010:02 Starting operating point, 0–2; default of 0x2100+n (R339)
  ⟨0x2010, 0x2010, 3, 3, 4, .ro, 0, 0, none, none, none, 1, false, false⟩, -- 0x2010:03 Plan checksum, CRC-32C over sub-indices 0x01 and 0x02 (R339)
  ⟨0x2010, 0x2010, 4, 4, 1, .ro, 0, 0, none, none, none, 1, false, false⟩, -- 0x2010:04 Crossings (R339)
  ⟨0x2011, 0x2011, 0, 0, 1, .cnst, 3, 0, none, none, none, 1, false, false⟩, -- 0x2011:00 Highest sub-index (R339)
  ⟨0x2011, 0x2011, 1, 1, 33, .ro, 0, 0, none, none, none, 1, false, false⟩, -- 0x2011:01 Roll Call roster, bit i for island i (R339)
  ⟨0x2011, 0x2011, 2, 2, 2, .ro, 0, 0, none, none, none, 1, false, false⟩, -- 0x2011:02 Islands failed at Roll Call (R339)
  ⟨0x2011, 0x2011, 3, 3, 4, .ro, 0, 0, none, none, none, 1, false, false⟩ -- 0x2011:03 Crossing parity errors since reset (R339)
]

/-- Objects of 0x2Bxx. -/
def Objects.rows13 : List ObjDef := [
  ⟨0x2b00, 0x2b00, 0, 0, 1, .cnst, 0xc, 0, none, none, none, 1, false, false⟩, -- 0x2B00:00 Highest sub-index (R340)
  ⟨0x2b00, 0x2b00, 1, 1, 1, .rw, 4, 1, some 20, none, none, 1, true, false⟩, -- 0x2B00:01 Temperature trigger, 1–20 (R340)
  ⟨0x2b00, 0x2b00, 2, 2, 2, .rw, 0x3c, 1, some 1440, none, none, 1, true, false⟩, -- 0x2B00:02 Longest interval between runs, 1–1,440 (R340)
  ⟨0x2b00, 0x2b00, 3, 3, 1, .rw, 0x18, 8, some 64, none, none, 1, true, false⟩, -- 0x2B00:03 Minimum eye width min_eye, 8–64 (R340)
  ⟨0x2b00, 0x2b00, 4, 4, 2, .rw, 0xa, 10, some 1000, none, none, 1, true, false⟩, -- 0x2B00:04 Slew interval, 10–1,000 (R340)
  ⟨0x2b00, 0x2b00, 5, 5, 1, .rw, 1, 1, some 2, none, none, 1, true, false⟩, -- 0x2B00:05 Slew step, 1–2 (R340)
  ⟨0x2b00, 0x2b00, 6, 6, 1, .rw, 0, 0, some 23, none, none, 1, true, true⟩, -- 0x2B00:06 Bay select, 0–23 (R340)
  ⟨0x2b00, 0x2b00, 7, 7, 1, .rw, 0, 0, some 63, none, none, 1, true, true⟩, -- 0x2B00:07 PC select, 0–63 (R340)
  ⟨0x2b00, 0x2b00, 8, 8, 1, .rw, 0, 0, some 5, none, none, 1, true, true⟩, -- 0x2B00:08 Set select, 0–5 (R340)
  ⟨0x2b00, 0x2b00, 9, 9, 64, .rw, 0, 0, none, none, none, 1, true, false⟩, -- 0x2B00:09 Calibration record of the selection (R330) (R340)
  ⟨0x2b00, 0x2b00, 10, 10, 6, .ro, 0, 0, none, none, none, 1, false, false⟩, -- 0x2B00:0A Eye monitor of the selected PC (R340)
  ⟨0x2b00, 0x2b00, 11, 11, 1, .wo, 0, 1, some 1, none, none, 1, false, false⟩, -- 0x2B00:0B Request run of the selected PC (R340)
  ⟨0x2b00, 0x2b00, 12, 12, 1024, .rw, 0, 0, none, none, none, 1, true, false⟩ -- 0x2B00:0C Carrel record of the selected bay (R340)
]

/-- Objects of 0x22xx. -/
def Objects.rows14 : List ObjDef := [
  ⟨0x2200, 0x2217, 1, 1, 1, .ro, 0, 0, none, none, none, 1, false, false⟩, -- 0x2200+n:01 Bring-up state (R341)
  ⟨0x2200, 0x2217, 2, 2, 1, .ro, 0, 0, none, none, none, 1, false, false⟩, -- 0x2200+n:02 Bay failure reason (R338) (R341)
  ⟨0x2200, 0x2217, 3, 3, 1, .ro, 0, 0, none, none, none, 1, false, false⟩, -- 0x2200+n:03 Stack capacity found (R341)
  ⟨0x2200, 0x2217, 4, 4, 8, .ro, 0, 0, none, none, none, 1, false, false⟩, -- 0x2200+n:04 PCs out of service from bring-up, bit p (R341)
  ⟨0x2200, 0x2217, 5, 5, 8, .ro, 0, 0, none, none, none, 1, false, false⟩, -- 0x2200+n:05 PCs with a run in progress, bit p (R341)
  ⟨0x2200, 0x2217, 6, 6, 4, .ro, 0, 0, none, none, none, 1, false, false⟩, -- 0x2200+n:06 Runs accepted since reset (R341)
  ⟨0x2200, 0x2217, 7, 7, 4, .ro, 0, 0, none, none, none, 1, false, false⟩, -- 0x2200+n:07 Runs discarded under R322 since reset (R341)
  ⟨0x2200, 0x2217, 8, 8, 2, .ro, 0, 0, none, none, none, 1, false, false⟩, -- 0x2200+n:08 Narrowest read margin over PCs in service (R341)
  ⟨0x2200, 0x2217, 9, 9, 2, .ro, 0, 0, none, none, none, 1, false, false⟩, -- 0x2200+n:09 Highest TCAL in use (R341)
  ⟨0x2200, 0x2217, 10, 10, 1, .ro, 0, 0, none, none, none, 1, false, false⟩ -- 0x2200+n:0A Carrel (R341)
]

/-- Objects of 0x2Axx. -/
def Objects.rows15 : List ObjDef := [
  ⟨0x2a00, 0x2a00, 0, 0, 1, .cnst, 9, 0, none, none, none, 1, false, false⟩, -- 0x2A00:00 Highest sub-index (R357)
  ⟨0x2a00, 0x2a00, 1, 1, 2, .ro, 0, 0, none, none, none, 1, false, false⟩, -- 0x2A00:01 Hottest reading or poll over the block (R357)
  ⟨0x2a00, 0x2a00, 2, 2, 1, .ro, 0, 0, none, none, none, 1, false, false⟩, -- 0x2A00:02 Bay of the hottest reading, 0–23 (R357)
  ⟨0x2a00, 0x2a00, 3, 3, 3, .ro, 0, 0, none, none, none, 1, false, false⟩, -- 0x2A00:03 Bays with SLOW set, bit b for bay b (R357)
  ⟨0x2a00, 0x2a00, 4, 4, 1, .ro, 0, 0, none, none, none, 1, false, false⟩, -- 0x2A00:04 SLOW_REQ output state (R357)
  ⟨0x2a00, 0x2a00, 5, 5, 2, .rw, 0xa, 1, some 10000, none, some 0, 1, true, false⟩, -- 0x2A00:05 Reading schedule, 0 none, 1–10,000 (R357)
  ⟨0x2a00, 0x2a00, 6, 6, 1, .wo, 0, 1, some 1, none, none, 1, true, false⟩, -- 0x2A00:06 Read every sensor now (R357)
  ⟨0x2a00, 0x2a00, 7, 7, 4, .ro, 0, 0, none, none, none, 1, false, false⟩, -- 0x2A00:07 Ladder steps down since reset (R357)
  ⟨0x2a00, 0x2a00, 8, 8, 4, .ro, 0, 0, none, none, none, 1, false, false⟩, -- 0x2A00:08 Trips and cold stops since reset (R357)
  ⟨0x2a00, 0x2a00, 9, 9, 4, .ro, 0, 0, none, none, none, 1, false, false⟩ -- 0x2A00:09 Stack power-downs since reset (R356) (R357)
]

/-- Objects of 0x22xx. -/
def Objects.rows16 : List ObjDef := [
  ⟨0x2200, 0x2217, 16, 16, 1, .ro, 1, 0, none, none, none, 1, false, false⟩, -- 0x2200+n:10 Thermal state (R358)
  ⟨0x2200, 0x2217, 17, 17, 1, .ro, 0, 0, none, none, none, 1, false, false⟩, -- 0x2200+n:11 Ladder level (R358)
  ⟨0x2200, 0x2217, 18, 18, 12, .ro, 0, 0, none, none, none, 1, false, false⟩, -- 0x2200+n:12 Last readings S0–S5, six INTEGER16 (R358)
  ⟨0x2200, 0x2217, 19, 19, 2, .ro, 0, 0, none, none, none, 1, false, false⟩, -- 0x2200+n:13 Last stack poll (R358)
  ⟨0x2200, 0x2217, 20, 20, 1, .ro, 0, 0, none, none, none, 1, false, false⟩, -- 0x2200+n:14 Stale flags (R358)
  ⟨0x2200, 0x2217, 21, 21, 7, .ro, 0, 0, none, none, none, 1, false, false⟩, -- 0x2200+n:15 Comparator states (R358)
  ⟨0x2200, 0x2217, 22, 22, 1, .ro, 0, 0, none, none, none, 1, false, false⟩, -- 0x2200+n:16 Last trip cause (R358)
  ⟨0x2200, 0x2217, 23, 23, 1, .ro, 0, 0, none, none, none, 1, false, false⟩ -- 0x2200+n:17 Cooling time remaining before restart (R358)
]

/-- Objects of 0x2Dxx. -/
def Objects.rows17 : List ObjDef := [
  ⟨0x2d00, 0x2d00, 0, 0, 1, .cnst, 0x16, 0, none, none, none, 1, false, false⟩, -- 0x2D00:00 Highest sub-index (R386)
  ⟨0x2d00, 0x2d00, 1, 1, 2, .ro, 0x3e8, 0, none, none, none, 1, false, false⟩, -- 0x2D00:01 Block health score, 0–1,000 (R386)
  ⟨0x2d00, 0x2d00, 2, 2, 1, .ro, 0, 0, none, none, none, 1, false, false⟩, -- 0x2D00:02 Block health state (R386)
  ⟨0x2d00, 0x2d00, 3, 3, 2, .rw, 0x2bc, 1, some 999, none, none, 1, false, false⟩, -- 0x2D00:03 Watch enter threshold, 1–999 (R386)
  ⟨0x2d00, 0x2d00, 4, 4, 2, .rw, 0x320, 2, some 1000, none, none, 1, false, false⟩, -- 0x2D00:04 Watch exit threshold, 2–1,000 (R386)
  ⟨0x2d00, 0x2d00, 5, 5, 2, .rw, 0x190, 1, some 998, none, none, 1, false, false⟩, -- 0x2D00:05 Failing enter threshold, 1–998 (R386)
  ⟨0x2d00, 0x2d00, 6, 6, 2, .rw, 0x226, 2, some 999, none, none, 1, false, false⟩, -- 0x2D00:06 Failing exit threshold, 2–999 (R386)
  ⟨0x2d00, 0x2d00, 7, 7, 2, .rw, 0x3c, 1, some 3600, none, none, 1, false, false⟩, -- 0x2D00:07 Enter dwell, 1–3,600 (R386)
  ⟨0x2d00, 0x2d00, 8, 8, 4, .rw, 0x258, 1, some 86400, none, none, 1, false, false⟩, -- 0x2D00:08 Exit dwell, 1–86,400 (R386)
  ⟨0x2d00, 0x2d00, 9, 9, 48, .ro, 0x3e803e803e803e803e803e803e803e803e803e803e803e803e803e803e803e803e803e803e803e803e803e803e803e8, 0, none, none, none, 1, false, false⟩, -- 0x2D00:09 Bay scores (R386)
  ⟨0x2d00, 0x2d00, 10, 10, 1, .wo, 0, 0, some 23, none, none, 1, true, false⟩, -- 0x2D00:0A Ordered fence (R386)
  ⟨0x2d00, 0x2d00, 11, 11, 1, .wo, 0, 0, some 23, none, none, 1, false, false⟩, -- 0x2D00:0B Lift ordered fence (R386)
  ⟨0x2d00, 0x2d00, 12, 12, 2, .wo, 0, 0, some 1535, none, none, 1, true, false⟩, -- 0x2D00:0C Withdrawal declaration (R386)
  ⟨0x2d00, 0x2d00, 13, 13, 24, .ro, 0, 0, none, none, none, 1, false, false⟩, -- 0x2D00:0D Declarations in the last 24 h (R386)
  ⟨0x2d00, 0x2d00, 14, 14, 8, .ro, 0, 0, none, none, none, 1, false, false⟩, -- 0x2D00:0E Order challenge (R386)
  ⟨0x2d00, 0x2d00, 15, 15, 4, .ro, 0, 0, none, none, none, 1, false, false⟩, -- 0x2D00:0F Orders accepted since reset (R386)
  ⟨0x2d00, 0x2d00, 16, 16, 4, .ro, 0, 0, none, none, none, 1, false, false⟩, -- 0x2D00:10 Orders refused since reset (R386)
  ⟨0x2d00, 0x2d00, 17, 17, 1, .ro, 0, 0, none, none, none, 1, false, false⟩, -- 0x2D00:11 Last refusal check code (R381), 0 for none (R386)
  ⟨0x2d00, 0x2d00, 18, 18, 1, .ro, 0, 0, none, none, none, 1, false, false⟩, -- 0x2D00:12 PCs in a retrain window now, 0–4 (R386)
  ⟨0x2d00, 0x2d00, 19, 19, 1, .rw, 0, 0, some 1, none, none, 1, false, false⟩, -- 0x2D00:13 Shadow mode (R374) (R386)
  ⟨0x2d00, 0x2d00, 20, 20, 8, .ro, 0, 0, none, none, none, 1, false, false⟩, -- 0x2D00:14 FWR and PUSH suppressed in shadow mode since reset (R386)
  ⟨0x2d00, 0x2d00, 21, 21, 1, .wo, 0, 1, some 1, none, none, 1, false, false⟩, -- 0x2D00:15 Rejoin disabled twin (R386)
  ⟨0x2d00, 0x2d00, 22, 22, 1, .ro, 0, 0, none, none, none, 1, false, false⟩, -- 0x2D00:16 Firmware image pending (R372) (R386)
  ⟨0x2d01, 0x2d01, 0, 0, 1, .cnst, 5, 0, none, none, none, 2, false, false⟩, -- 0x2D01:00 Highest sub-index (R386)
  ⟨0x2d01, 0x2d01, 1, 5, 96, .rw, 0, 0, none, none, none, 2, false, false⟩ -- 0x2D01:01–0x2D01:05 Manager key slot i−1 (R383) (R386)
]

/-- Objects of 0x5Fxx. -/
def Objects.rows18 : List ObjDef := [
  ⟨0x5f10, 0x5f10, 0, 0, 1, .cnst, 0xa, 0, none, none, none, 1, false, false⟩, -- 0x5F10:00 Highest sub-index (R387)
  ⟨0x5f10, 0x5f10, 1, 1, 4, .ro, 0, 0, none, none, none, 1, false, false⟩, -- 0x5F10:01 Limit 1 (R387)
  ⟨0x5f10, 0x5f10, 2, 2, 4, .ro, 0, 0, none, none, none, 1, false, false⟩, -- 0x5F10:02 Limit 2 (R387)
  ⟨0x5f10, 0x5f10, 3, 3, 4, .ro, 0, 0, none, none, none, 1, false, false⟩, -- 0x5F10:03 Limit 3 (R387)
  ⟨0x5f10, 0x5f10, 4, 4, 4, .ro, 0, 0, none, none, none, 1, false, false⟩, -- 0x5F10:04 Limit 4 (R387)
  ⟨0x5f10, 0x5f10, 5, 5, 4, .ro, 0, 0, none, none, none, 1, false, false⟩, -- 0x5F10:05 Limit 5 (R387)
  ⟨0x5f10, 0x5f10, 6, 6, 4, .ro, 0, 0, none, none, none, 1, false, false⟩, -- 0x5F10:06 Limit 6 (R387)
  ⟨0x5f10, 0x5f10, 7, 7, 4, .ro, 0, 0, none, none, none, 1, false, false⟩, -- 0x5F10:07 Limit 7 (R387)
  ⟨0x5f10, 0x5f10, 8, 8, 4, .ro, 0, 0, none, none, none, 1, false, false⟩, -- 0x5F10:08 Limit 8 (R387)
  ⟨0x5f10, 0x5f10, 9, 9, 4, .ro, 0, 0, none, none, none, 1, false, false⟩, -- 0x5F10:09 Limit 9 (R387)
  ⟨0x5f10, 0x5f10, 10, 10, 4, .ro, 0, 0, none, none, none, 1, false, false⟩ -- 0x5F10:0A Limit 10 (R387)
]

/-- Objects of 0x22xx. -/
def Objects.rows19 : List ObjDef := [
  ⟨0x2200, 0x2217, 24, 24, 8, .ro, 0, 0, none, none, none, 1, false, false⟩, -- 0x2200+n:18 Withdrawn PCs, bit p (R388)
  ⟨0x2200, 0x2217, 25, 25, 8, .ro, 0, 0, none, none, none, 1, false, false⟩, -- 0x2200+n:19 Withdrawing PCs, bit p (R388)
  ⟨0x2200, 0x2217, 26, 26, 1, .ro, 0, 0, none, none, none, 1, false, false⟩, -- 0x2200+n:1A Fence cause (R388)
  ⟨0x2200, 0x2217, 27, 27, 1, .ro, 0, 0, none, none, none, 1, false, false⟩, -- 0x2200+n:1B Health state (R388)
  ⟨0x2200, 0x2217, 28, 28, 1, .ro, 4, 0, none, none, none, 1, false, false⟩, -- 0x2200+n:1C Withdrawal allowance in force under R379 (R388)
  ⟨0x2200, 0x2217, 29, 29, 1, .ro, 0xff, 0, none, none, none, 1, false, false⟩, -- 0x2200+n:1D PC in a retrain window (R388)
  ⟨0x2200, 0x2217, 30, 30, 4, .ro, 0, 0, none, none, none, 1, false, false⟩, -- 0x2200+n:1E Retrain windows ended by real-time requests since reset (R36 (R388)
  ⟨0x2200, 0x2217, 31, 31, 1, .ro, 0, 0, none, none, none, 1, false, false⟩ -- 0x2200+n:1F Collating lanes lost beyond the spare since reset (R388)
]

/-- Objects of 0x20xx. -/
def Objects.rows20 : List ObjDef := [
  ⟨0x2001, 0x2001, 0, 0, 1, .rw, 0, 0, some 1, none, none, 1, false, false⟩ -- 0x2001:00 Determinism bit (R389) (R412)
]

/-- Objects of 0x2Exx. -/
def Objects.rows21 : List ObjDef := [
  ⟨0x2e00, 0x2e00, 0, 0, 1, .cnst, 0x12, 0, none, none, none, 1, false, false⟩, -- 0x2E00:00 Highest sub-index (R413)
  ⟨0x2e00, 0x2e00, 1, 1, 1, .rw, 0, 0, some 1, none, none, 1, false, false⟩, -- 0x2E00:01 Daybook recording (R413)
  ⟨0x2e00, 0x2e00, 2, 2, 2, .rw, 0x40, 0, some 352, none, none, 1, false, false⟩, -- 0x2E00:02 Daybook share per bay, 0–352 (R413)
  ⟨0x2e00, 0x2e00, 3, 3, 1, .rw, 0, 0, some 1, none, none, 1, false, false⟩, -- 0x2E00:03 Stream full (R413)
  ⟨0x2e00, 0x2e00, 4, 4, 8, .rw, 0, 0, none, none, none, 1, false, false⟩, -- 0x2E00:04 Run seed (R413)
  ⟨0x2e00, 0x2e00, 5, 5, 4, .ro, 0, 0, none, none, none, 1, false, false⟩, -- 0x2E00:05 Run serial (R413)
  ⟨0x2e00, 0x2e00, 6, 6, 1, .ro, 0, 0, none, none, none, 1, false, false⟩, -- 0x2E00:06 Run flags (R393) (R413)
  ⟨0x2e00, 0x2e00, 7, 7, 1, .wo, 0, 1, some 1, none, none, 1, false, false⟩, -- 0x2E00:07 Begin a new run (R413)
  ⟨0x2e00, 0x2e00, 8, 8, 8, .ro, 0, 0, none, none, none, 1, false, false⟩, -- 0x2E00:08 Daybook records written since reset (R413)
  ⟨0x2e00, 0x2e00, 9, 9, 8, .ro, 0, 0, none, none, none, 1, false, false⟩, -- 0x2E00:09 Daybook records lost since reset (R413)
  ⟨0x2e00, 0x2e00, 10, 10, 1, .rw, 0, 0, some 2, none, none, 1, false, false⟩, -- 0x2E00:0A Replay (R413)
  ⟨0x2e00, 0x2e00, 11, 11, 1, .ro, 0, 0, none, none, none, 1, false, false⟩, -- 0x2E00:0B Replay status (R413)
  ⟨0x2e00, 0x2e00, 12, 12, 8, .ro, 0, 0, none, none, none, 1, false, false⟩, -- 0x2E00:0C First divergence (R413)
  ⟨0x2e00, 0x2e00, 13, 13, 1, .wo, 0, 1, some 2, none, none, 1, false, false⟩, -- 0x2E00:0D Pause control (R413)
  ⟨0x2e00, 0x2e00, 14, 14, 1, .ro, 0, 0, none, none, none, 1, false, false⟩, -- 0x2E00:0E Pause state (R413)
  ⟨0x2e00, 0x2e00, 15, 15, 2, .rw, 0x3e8, 1, some 60000, none, none, 1, false, false⟩, -- 0x2E00:0F Pause timeout, 1–60,000 (R413)
  ⟨0x2e00, 0x2e00, 16, 16, 1, .ro, 0, 0, none, none, none, 1, false, false⟩, -- 0x2E00:10 Postmark state (R413)
  ⟨0x2e00, 0x2e00, 17, 17, 1, .wo, 0, 1, some 1, none, none, 1, false, false⟩, -- 0x2E00:11 Postmark self-test (R413)
  ⟨0x2e00, 0x2e00, 18, 18, 32, .ro, 0, 0, none, none, none, 1, false, false⟩, -- 0x2E00:12 Self-test digest (R413)
  ⟨0x2e01, 0x2e01, 0, 0, 1, .cnst, 0x19, 0, none, none, none, 1, false, false⟩, -- 0x2E01:00 Highest sub-index (R413)
  ⟨0x2e01, 0x2e01, 1, 25, 8, .ro, 0, 0, none, none, none, 1, false, false⟩ -- 0x2E01:01–0x2E01:19 First divergence of stream s−1 (R403) (R413)
]

/-- Objects of 0x5Fxx. -/
def Objects.rows22 : List ObjDef := [
  ⟨0x5f00, 0x5f00, 0, 0, 1, .cnst, 7, 0, none, none, none, 0, false, false⟩, -- 0x5F00:00 Highest sub-index (R437)
  ⟨0x5f00, 0x5f00, 1, 1, 2, .rw, 0, 0, none, none, none, 0, true, false⟩, -- 0x5F00:01 Target index (R437)
  ⟨0x5f00, 0x5f00, 2, 2, 8, .rw, 0, 0, none, none, none, 0, true, false⟩, -- 0x5F00:02 Address, byte offset in the target (R437)
  ⟨0x5f00, 0x5f00, 3, 3, 1, .wo, 0, 1, some 4, none, none, 0, true, false⟩, -- 0x5F00:03 Control (R437)
  ⟨0x5f00, 0x5f00, 4, 4, 4096, .rw, 0, 0, none, none, none, 0, true, false⟩, -- 0x5F00:04 Window (R437)
  ⟨0x5f00, 0x5f00, 5, 5, 8, .ro, 0, 0, none, none, none, 0, false, false⟩, -- 0x5F00:05 Content length of the open target (R437)
  ⟨0x5f00, 0x5f00, 6, 6, 1, .ro, 0, 0, none, none, none, 0, false, false⟩, -- 0x5F00:06 State (R437)
  ⟨0x5f00, 0x5f00, 7, 7, 2, .rw, 0x1000, 32, some 4096, none, none, 0, true, false⟩ -- 0x5F00:07 Read burst size, 32–4,096 (R437)
]

/-- Objects of 0x10xx. -/
def Objects.rows23 : List ObjDef := [
  ⟨0x1001, 0x1001, 0, 0, 1, .ro, 0, 0, none, none, none, 1, false, false⟩, -- 0x1001:00 Error register (R441)
  ⟨0x1014, 0x1014, 0, 0, 4, .cnst, 0x80, 0, none, none, none, 1, false, false⟩, -- 0x1014:00 EMCY identifier (R441)
  ⟨0x1017, 0x1017, 0, 0, 2, .rw, 0x3e8, 100, some 10000, none, some 0, 1, false, false⟩ -- 0x1017:00 Heartbeat period, 0 off or 100–10,000 (R441)
]

/-- Objects of 0x12xx. -/
def Objects.rows24 : List ObjDef := [
  ⟨0x1200, 0x1200, 1, 2, 4, .cnst, 0x600, 0, none, none, none, 1, false, false⟩, -- 0x1200:01, 0x1200:02 SDO channel 0 identifiers, client to block and block to clie (R441)
  ⟨0x1201, 0x1203, 1, 2, 4, .rw, 0x80000000, 0, none, none, none, 1, false, false⟩ -- 0x1201–0x1203:01, :02 SDO channels 1–3 identifiers; bit 31 set disables (R441)
]

/-- Objects of 0x1Fxx. -/
def Objects.rows25 : List ObjDef := [
  ⟨0x1f00, 0x1f00, 1, 1, 8, .ro, 0, 0, none, none, none, 1, false, false⟩, -- 0x1F00:01 Challenge of this session (R441)
  ⟨0x1f00, 0x1f00, 2, 2, 196, .wo, 0, 0, none, none, none, 0, false, false⟩, -- 0x1F00:02 Login (R421); any privilege (R441)
  ⟨0x1f00, 0x1f00, 3, 3, 1, .ro, 0, 0, none, none, none, 1, false, false⟩, -- 0x1F00:03 Privilege of this session (R441)
  ⟨0x1f00, 0x1f00, 4, 4, 1, .wo, 0, 1, some 1, none, none, 0, false, false⟩, -- 0x1F00:04 Logout (R441)
  ⟨0x1f01, 0x1f01, 1, 8, 96, .rw, 0, 0, none, none, none, 2, false, false⟩, -- 0x1F01:01–0x1F01:08 Service key slot i−1, X then Y; written with Factory privile (R441)
  ⟨0x1f20, 0x1f20, 1, 1, 8, .cnst, 0, 0, none, none, none, 1, false, false⟩, -- 0x1F20:01 I3C provisional ID (R441)
  ⟨0x1f20, 0x1f20, 2, 2, 1, .ro, 0, 0, none, none, none, 1, false, false⟩, -- 0x1F20:02 I3C dynamic address, 0 for none (R441)
  ⟨0x1f30, 0x1f30, 1, 1, 1, .ro, 0, 0, none, none, none, 1, false, false⟩, -- 0x1F30:01 CAN FD node ID, 0 disabled (R441)
  ⟨0x1f30, 0x1f30, 2, 2, 1, .ro, 0, 0, none, none, none, 1, false, false⟩, -- 0x1F30:02 CAN FD rates (R441)
  ⟨0x1f30, 0x1f30, 3, 3, 4, .ro, 0, 0, none, none, none, 1, false, false⟩ -- 0x1F30:03 CAN FD error frames since reset (R441)
]

/-- Objects of 0x20xx. -/
def Objects.rows26 : List ObjDef := [
  ⟨0x2003, 0x2003, 1, 1, 4, .rw, 0, 0, none, some 0x3, none, 1, false, false⟩, -- 0x2003:01 Operator grants (R423) (R441)
  ⟨0x2090, 0x2090, 0, 0, 1, .cnst, 6, 0, none, none, none, 1, false, false⟩, -- 0x2090:00 Highest sub-index (R441)
  ⟨0x2090, 0x2090, 1, 1, 4, .ro, 0, 0, none, none, none, 1, false, false⟩, -- 0x2090:01 Events raised since reset (R441)
  ⟨0x2090, 0x2090, 2, 2, 1, .rw, 3, 0, none, some 0x3, none, 1, false, false⟩, -- 0x2090:02 Event notification (R441)
  ⟨0x2090, 0x2090, 3, 3, 16, .ro, 0, 0, none, none, none, 1, false, false⟩, -- 0x2090:03 Next event for this session; any privilege (R441)
  ⟨0x2090, 0x2090, 4, 4, 4, .ro, 0, 0, none, none, none, 1, false, false⟩, -- 0x2090:04 Events lost by this session (R441)
  ⟨0x2090, 0x2090, 5, 5, 1, .rw, 0, 0, none, none, none, 0, false, true⟩, -- 0x2090:05 Queue read index, 0–255, 0 the newest (R441)
  ⟨0x2090, 0x2090, 6, 6, 16, .ro, 0, 0, none, none, none, 1, false, false⟩ -- 0x2090:06 Event at the read index (R441)
]

/-- Objects of 0x30xx. -/
def Objects.rows27 : List ObjDef := [
  ⟨0x3000, 0x367f, 0, 0, 1, .cnst, 5, 0, none, none, none, 1, false, false⟩, -- 0x3000+c:00 Highest sub-index, counter c, 0–1,663 (R469)
  ⟨0x3000, 0x367f, 1, 1, 4, .rw, 0, 0, none, some 0x9ffff, none, 1, false, false⟩, -- 0x3000+c:01 Control (R443) (R469)
  ⟨0x3000, 0x367f, 2, 2, 8, .rw, 0xffffffffffffffff, 0, none, none, none, 1, false, false⟩, -- 0x3000+c:02 Class filter (R445) (R469)
  ⟨0x3000, 0x367f, 3, 3, 4, .rw, 0xf, 0, none, some 0xbfbfff8f, none, 1, false, false⟩, -- 0x3000+c:03 Port, PC, domain and origin filter (R445) (R469)
  ⟨0x3000, 0x367f, 4, 4, 8, .rw, 0, 0, none, none, none, 1, false, false⟩, -- 0x3000+c:04 Address low (R469)
  ⟨0x3000, 0x367f, 5, 5, 8, .rw, 0x3fffffffffffff, 0, none, none, none, 1, false, false⟩ -- 0x3000+c:05 Address high (R469)
]

/-- Objects of 0x36xx. -/
def Objects.rows28 : List ObjDef := [
  ⟨0x3680, 0x3680, 0, 0, 1, .cnst, 6, 0, none, none, none, 1, false, false⟩, -- 0x3680:00 Highest sub-index (R469)
  ⟨0x3680, 0x3680, 1, 1, 2, .rw, 0xffff, 0, some 1663, none, some 65535, 1, false, true⟩, -- 0x3680:01 Counter select, 0–1,663, 0xFFFF none (R469)
  ⟨0x3680, 0x3680, 2, 2, 16, .ro, 0, 0, none, none, none, 1, false, false⟩, -- 0x3680:02 Value of the selection (R449) (R469)
  ⟨0x3680, 0x3680, 3, 3, 8, .ro, 0, 0, none, none, none, 1, false, false⟩, -- 0x3680:03 Sample time of the last value read (R469)
  ⟨0x3680, 0x3680, 4, 4, 1, .wo, 0, 1, some 3, none, none, 1, false, false⟩, -- 0x3680:04 Control (R469)
  ⟨0x3680, 0x3680, 5, 5, 1, .wo, 0, 1, some 1, none, none, 1, false, false⟩, -- 0x3680:05 Clear the selected counter or pair (R469)
  ⟨0x3680, 0x3680, 6, 6, 8, .ro, 0, 0, none, none, none, 1, false, false⟩, -- 0x3680:06 Frozen since block time, 0 when counting (R469)
  ⟨0x3690, 0x3690, 0, 0, 1, .cnst, 6, 0, none, none, none, 1, false, false⟩, -- 0x3690:00 Highest sub-index (R469)
  ⟨0x3690, 0x3690, 1, 1, 1, .rw, 0, 8, some 20, none, some 0, 1, false, false⟩, -- 0x3690:01 Rate exponent N (R469)
  ⟨0x3690, 0x3690, 2, 2, 8, .rw, 0xffffffffffffffff, 0, none, none, none, 1, false, false⟩, -- 0x3690:02 Classes tagged, bit t for class t (R469)
  ⟨0x3690, 0x3690, 3, 3, 8, .rw, 0xffffffffffff, 0, none, some 0xffffffffffff, none, 1, false, false⟩, -- 0x3690:03 Ports tagged, bit p for port p (R469)
  ⟨0x3690, 0x3690, 4, 4, 8, .ro, 0, 0, none, none, none, 1, false, false⟩, -- 0x3690:04 Records committed since reset (R469)
  ⟨0x3690, 0x3690, 5, 5, 2, .rw, 0, 0, some 1023, none, none, 1, false, true⟩, -- 0x3690:05 Record read index, 0–1,023, 0 the newest (R469)
  ⟨0x3690, 0x3690, 6, 6, 40, .ro, 0, 0, none, none, none, 1, false, false⟩ -- 0x3690:06 Record at the read index (R456) (R469)
]

/-- Objects of 0x38xx. -/
def Objects.rows29 : List ObjDef := [
  ⟨0x3800, 0x3800, 0, 0, 1, .cnst, 6, 0, none, none, none, 1, false, false⟩, -- 0x3800:00 Highest sub-index (R469)
  ⟨0x3800, 0x3800, 1, 1, 1, .rw, 0, 0, some 1, none, none, 1, false, false⟩, -- 0x3800:01 Jostle enable (R469)
  ⟨0x3800, 0x3800, 2, 2, 2, .rw, 0x3c, 1, some 3600, none, none, 1, false, false⟩, -- 0x3800:02 Duration, 1–3,600 (R469)
  ⟨0x3800, 0x3800, 3, 3, 8, .rw, 0, 0, none, none, none, 1, false, false⟩, -- 0x3800:03 Jostle seed (R469)
  ⟨0x3800, 0x3800, 4, 4, 2, .ro, 0, 0, none, none, none, 1, false, false⟩, -- 0x3800:04 Time remaining (R469)
  ⟨0x3800, 0x3800, 5, 5, 8, .ro, 0, 0, none, none, none, 1, false, false⟩, -- 0x3800:05 Perturbations applied since reset (R469)
  ⟨0x3800, 0x3800, 6, 6, 2, .ro, 0, 0, none, none, none, 1, false, false⟩, -- 0x3800:06 Slots refused at the last enable, bit i for slot i (R469)
  ⟨0x3810, 0x3810, 0, 0, 1, .cnst, 0x10, 0, none, none, none, 1, false, false⟩, -- 0x3810:00 Highest sub-index (R469)
  ⟨0x3810, 0x3810, 1, 16, 8, .rw, 0, 0, none, none, none, 1, false, false⟩ -- 0x3810:01–0x3810:10 Jostle slot i−1 (R457) (R469)
]

/-- Objects of 0x1Fxx. -/
def Objects.rows30 : List ObjDef := [
  ⟨0x1f00, 0x1f00, 0, 0, 1, .cnst, 4, 0, none, none, none, 1, false, false⟩, -- 0x1F00:00 highest sub-index (R441)
  ⟨0x1f01, 0x1f01, 0, 0, 1, .cnst, 8, 0, none, none, none, 1, false, false⟩, -- 0x1F01:00 highest sub-index (R441)
  ⟨0x1f20, 0x1f20, 0, 0, 1, .cnst, 2, 0, none, none, none, 1, false, false⟩, -- 0x1F20:00 highest sub-index (R441)
  ⟨0x1f30, 0x1f30, 0, 0, 1, .cnst, 3, 0, none, none, none, 1, false, false⟩, -- 0x1F30:00 highest sub-index (R441)
  ⟨0x1200, 0x1203, 0, 0, 1, .cnst, 2, 0, none, none, none, 1, false, false⟩, -- 0x1200:00–0x1203:00 highest sub-index (R441)
  ⟨0x2003, 0x2003, 0, 0, 1, .cnst, 1, 0, none, none, none, 1, false, false⟩ -- 0x2003:00 highest sub-index (R441)
]

/-- The object dictionary (R415): runs of rows, each with the lowest and highest index in it. -/
def Objects.table : List (Nat × Nat × List ObjDef) := [
  (0x1000, 0x1018, Objects.rows0),
  (0x2002, 0x2041, Objects.rows1),
  (0x2400, 0x2400, Objects.rows2),
  (0x2050, 0x2070, Objects.rows3),
  (0x2800, 0x2801, Objects.rows4),
  (0x2100, 0x2117, Objects.rows5),
  (0x2200, 0x2217, Objects.rows6),
  (0x2600, 0x263f, Objects.rows7),
  (0x2080, 0x2080, Objects.rows8),
  (0x2700, 0x2700, Objects.rows9),
  (0x2c00, 0x2c60, Objects.rows10),
  (0x2c60, 0x2c60, Objects.rows11),
  (0x2000, 0x2011, Objects.rows12),
  (0x2b00, 0x2b00, Objects.rows13),
  (0x2200, 0x2217, Objects.rows14),
  (0x2a00, 0x2a00, Objects.rows15),
  (0x2200, 0x2217, Objects.rows16),
  (0x2d00, 0x2d01, Objects.rows17),
  (0x5f10, 0x5f10, Objects.rows18),
  (0x2200, 0x2217, Objects.rows19),
  (0x2001, 0x2001, Objects.rows20),
  (0x2e00, 0x2e01, Objects.rows21),
  (0x5f00, 0x5f00, Objects.rows22),
  (0x1001, 0x1017, Objects.rows23),
  (0x1200, 0x1203, Objects.rows24),
  (0x1f00, 0x1f30, Objects.rows25),
  (0x2003, 0x2090, Objects.rows26),
  (0x3000, 0x367f, Objects.rows27),
  (0x3680, 0x3690, Objects.rows28),
  (0x3800, 0x3810, Objects.rows29),
  (0x1200, 0x2003, Objects.rows30)]

/-- The row of an object, if the object exists (R414). -/
def Objects.find (i sub : Nat) : Option ObjDef :=
  Objects.table.findSome? fun t =>
    if t.1 ≤ i && i ≤ t.2.1 then t.2.2.find? fun r => r.i0 ≤ i && i ≤ r.i1 && r.s0 ≤ sub && sub ≤ r.s1 else none

/-- An index exists when some sub-index of it does (R414). -/
def Objects.hasIndex (i : Nat) : Bool :=
  Objects.table.any fun t => t.2.2.any fun r => r.i0 ≤ i && i ≤ r.i1

/-- The dictionary key of an object. -/
def Objects.key (i sub : Nat) : Nat := i * 256 + sub

/-- The Default of an object by its key. -/
def Objects.dflt (k : Nat) : Nat :=
  match Objects.find (k / 256) (k % 256) with
  | some r => r.dflt
  | none => 0

/-- A value the row's range and reserved bits allow (R11, R428 order 8). -/
def ObjDef.admits (r : ObjDef) (v : Nat) : Bool :=
  r.alt == some v ||
  (r.lo ≤ v && (match r.hi with | some h => decide (v ≤ h) | none => true) &&
   (match r.mask with | some m => v &&& m == v | none => true))

end Sys2Proof.Machine
end

