-- ==== Sys2Proof/Machine/Ops.lean ====
section
/-! DEFINITION. The named operations over the state that every family uses: the dictionary, the clock, free values, ports
and credits, the wire, answers, counters, the Daybook and management events. -/

namespace Sys2Proof.Machine

/-- The outcome of a command. -/
abbrev Out := Host.Outcome State Fault Refusal

/-- The value of an object held in the dictionary (R415, R424). -/
def State.obj (s : State) (i sub : Nat) : Nat := getA s.objs (Objects.key i sub) (Objects.dflt (Objects.key i sub))

/-- Sets the value of an object; a value equal to its Default is not listed. -/
def State.setObj (s : State) (i sub v : Nat) : State :=
  { s with objs := setA s.objs (Objects.key i sub) v (Objects.dflt (Objects.key i sub)) }

/-- Adds to a count held in the dictionary. -/
def State.bump (s : State) (i sub : Nat) (n : Nat := 1) : State := s.setObj i sub (s.obj i sub + n)

/-- The next free value: a draw of the entropy source, or a value the spec leaves open (log 3). -/
def State.draw (s : State) : BitVec 64 × State := (Config.freeValue s.free, { s with free := s.free + 1 })

/-- Block time: Registry cycles since the run began (R392). -/
def State.time (s : State) : Nat := s.now - s.runStart

/-- The block is in the stopped state (R19). -/
def State.stopped (s : State) : Bool := s.boot.code == 0x31

/-- Bring-up has passed port enable (R62), in service or stopped since. -/
def State.running (s : State) : Bool := s.boot.code == 0x20

/-- Determinism mode (R389): the bit as Roll Call took it. -/
def State.determinism (s : State) : Bool := s.obj 0x2001 0 == 1

/-- Bay `b`. -/
def State.bay (s : State) (b : Nat) : Bay := s.bays.getD b {}

/-- Replaces bay `b`. -/
def State.setBay (s : State) (b : Nat) (y : Bay) : State := { s with bays := s.bays.set b y }

/-- Changes bay `b`. -/
def State.modBay (s : State) (b : Nat) (f : Bay → Bay) : State := s.setBay b (f (s.bay b))

/-- Bay `b` is fenced, for whatever cause (R367). -/
def State.fenced (s : State) (b : Nat) : Bool := (s.bay b).repair.fence != 0

/-- Port `p`. -/
def State.port (s : State) (p : Nat) : PortSt := s.ports.getD p {}

/-- Replaces port `p`. -/
def State.setPort (s : State) (p : Nat) (q : PortSt) : State := { s with ports := s.ports.set p q }

/-- Configuration word of port `p` (R62). -/
def State.portCfg (s : State) (p : Nat) : Nat := s.obj 0x2040 (p + 1)

/-- A port is in service (R62). -/
def State.inService (s : State) (p : Nat) : Bool :=
  p < s.size.ports && bit (s.portCfg p) 0 && (s.port p).up && !(s.port p).linkDown && (s.bay (p / 2)).repair.island

/-- No port is in service: the condition of R65 and R374. -/
def State.portsDisabled (s : State) : Bool := (List.range s.size.ports).all fun p => !s.inService p

/-- The index of an object lies in a range that has one object, or 64, per bay, of a bay that the size lacks (R6). -/
def Size.lacksObject (z : Size) (i : Nat) : Bool :=
  (0x2100 + z.bays ≤ i && i ≤ 0x2117) || (0x2200 + z.bays ≤ i && i ≤ 0x2217) || (0x3000 + 64 * z.bays ≤ i && i < 0x3600)

/-- The row of an object in a size, if the object exists there: a size other than KZ24 has fewer bays and ports, and an object with
one value per bay is that much shorter (R3, R6, R414; log 43). -/
def State.objDef (s : State) (i sub : Nat) : Option ObjDef :=
  let b := s.size.bays
  match Objects.find i sub with
  | none => none
  | some r =>
    if s.size.lacksObject i || (i = 0x2040 && s.size.ports < sub) then none
    else if i = 0x2070 && sub = 6 || i = 0x2D00 && sub = 0x0D then some { r with size := b }
    else if i = 0x2080 && sub = 4 || i = 0x2D00 && sub = 9 then some { r with size := 2 * b }
    else if i = 0x2400 && sub = 0x0A || i = 0x2C60 && sub = 2 then some { r with hi := some (s.size.segments - 1) }
    else if i = 0x2C10 && sub = 1 || i = 0x2B00 && sub = 6 || i = 0x2D00 && (sub = 0x0A || sub = 0x0B) then some { r with hi := some (b - 1) }
    else some r

/-- An index exists in the size of the block (R414). -/
def State.hasIndex (s : State) (i : Nat) : Bool := Objects.hasIndex i && !s.size.lacksObject i

/-- Adds to the wire log, newest first. -/
def State.emit (s : State) (w : Wire) : State := { s with wire := w :: s.wire }

/-! ### Circulation counters (R442 to R447) -/

/-- One occurrence that counters may count: its code, place and the quantities that filters look at (R444, R445).
`origin` is the bit of ORIGIN: 0 client request, 1 block maintenance, 2 Clerk, 3 management. -/
structure Occ where
  code : Nat
  bay : Option Nat := none
  pc : Option Nat := none
  cls : Option Nat := none
  port : Option Nat := none
  addr : Option Nat := none
  dom : Option Nat := none
  origin : Nat := 0
  adds : Nat := 1
  deriving DecidableEq, Repr

/-- Which filters apply to an event (R444): class, port, PC, address, origin, domain. -/
def Occ.filters (code : Nat) : List Bool :=
  if [0x0002, 0x0003, 0x0009, 0x000D].contains code then [true, false, true, true, true, true]
  else if (0x0004 ≤ code && code ≤ 0x0008) || [0x000E, 0x000F, 0x0010, 0x0011, 0x0012, 0x0013].contains code then
    [false, false, true, false, false, false]
  else if [0x000A, 0x000B].contains code then [true, false, false, true, true, true]
  else if code == 0x000C then [true, false, true, false, false, false]
  else if code == 0x0020 then [true, true, false, false, true, true]
  else if [0x0021, 0x0022, 0x0023, 0x0024, 0x0130].contains code then [true, false, false, false, false, false]
  else if [0x0102, 0x0103, 0x0108].contains code then [true, true, false, true, false, true]
  else if [0x0104, 0x0105, 0x0106, 0x0131].contains code then [true, true, false, false, false, false]
  else if code == 0x0107 then [false, true, false, false, false, false]
  else if code == 0x0110 then [false, true, false, true, false, false]
  else if code == 0x0111 then [false, false, false, true, false, false]
  else if [0x0120, 0x0121].contains code then [false, true, false, false, false, true]
  else if code == 0x0150 then [false, false, false, false, true, false]
  else [false, false, false, false, false, false]

/-- The events that bay counters count, and those that central counters count (R443, R444). -/
def eventOfKind (bayKind : Bool) (code : Nat) : Bool :=
  if bayKind then (0x0001 ≤ code && code ≤ 0x0013) || (0x0020 ≤ code && code ≤ 0x0024)
  else [0x0101, 0x0102, 0x0103, 0x0104, 0x0105, 0x0106, 0x0107, 0x0108, 0x0110, 0x0111, 0x0120, 0x0121, 0x0130, 0x0131,
    0x0140, 0x0150].contains code

/-- Counter `c` lets an occurrence pass its filters (R445). -/
def State.passes (s : State) (c : Nat) (o : Occ) : Bool :=
  let f := Occ.filters o.code
  let w3 := s.obj (0x3000 + c) 3
  let alo := s.obj (0x3000 + c) 4
  let ahi := s.obj (0x3000 + c) 5
  (match o.cls with | some k => !f.getD 0 false || bit (s.obj (0x3000 + c) 2) k | none => true) &&
  (match o.port with | some p => !f.getD 1 false || !bit w3 31 || bits w3 29 24 == p | none => true) &&
  (match o.pc with | some p => !f.getD 2 false || !bit w3 23 || bits w3 21 16 == p | none => true) &&
  (!f.getD 3 false || (match o.addr with
    | some a => alo ≤ a && a ≤ ahi
    | none => alo == 0 && ahi == 0x3FFFFFFFFFFFFF)) &&
  (!f.getD 4 false || bit w3 o.origin) &&
  (match o.dom with | some d => !f.getD 5 false || !bit w3 15 || bits w3 14 7 == d | none => true)

/-- The counters whose control word is not at its reset value. -/
def State.setCounters (s : State) : List Nat :=
  s.objs.filterMap fun e =>
    if 0x300000 ≤ e.1 && e.1 < 0x368000 && e.1 % 256 == 1 then some (e.1 / 256 - 0x3000) else none

/-- Counter `c` is the low half of a chained pair (R447). -/
def State.chained (s : State) (c : Nat) : Bool := bit (s.obj (0x3000 + (c / 2 * 2 + 1)) 1) 19

/-- Adds to counter `c`, with the wrap of R446 and R447. -/
def State.addCtr (s : State) (c n : Nat) : State :=
  let x := getA s.test.ctrs c {}
  let v := x.count + n
  let put (t : State) (k : Nat) (y : Ctr) : State := { t with test := { t.test with ctrs := setA t.test.ctrs k y {} } }
  if v < 2 ^ 48 then put s c { x with count := v }
  else if s.chained c && c % 2 == 0 then
    let y := getA s.test.ctrs (c + 1) {}
    let w := y.count + v / 2 ^ 48
    put (put s c { x with count := v % 2 ^ 48 }) (c + 1) { count := w % 2 ^ 48, ovf := y.ovf || 2 ^ 48 ≤ w }
  else put s c { count := v % 2 ^ 48, ovf := true }

/-- Counts one occurrence in every counter that it concerns (R446). -/
def State.count (s : State) (o : Occ) : State :=
  if s.test.frozen.isSome then s else
  s.setCounters.foldl (fun t c =>
    let w := s.obj (0x3000 + c) 1
    let mine := match o.bay with | some b => c / 64 == b && c < 1536 | none => 1536 ≤ c
    if mine && bit w 16 && !bit w 19 && bits w 15 0 == o.code && s.passes c o then t.addCtr c o.adds else t) s

/-- `n` Registry cycles pass (R28, R444): the cycles, and those of ports with a message that waits for credits, are counted; a
port-island cycle is half a Registry cycle. -/
def State.pass (s : State) (n : Nat) : State :=
  let s := { s with now := s.now + n }
  if n = 0 || s.setCounters.isEmpty then s
  else
    ((List.range s.size.ports).filter fun p => !(s.port p).outq.isEmpty).foldl
      (fun t p => t.count { code := 0x0107, port := some p, adds := 2 * n })
      ((s.count { code := 0x0101, adds := n }).count { code := 0x0140, adds := Config.hubFlits 2 s.now })

/-- The clock as a timed event finds it: never before the instant the event is due (log 2). -/
def State.reach (s : State) (t : Nat) : State := s.pass (t - s.now)

/-! ### The Daybook (R392 to R399) -/

/-- The records that a stream holds (R397): 15/16 of the bay's share, or the Registry stream's 1/16 of each share. -/
def State.streamCap (s : State) (n : Nat) : Nat :=
  let share := s.obj 0x2E00 2 * 1048576
  if n < 24 then share * 15 / 16 / 32
  else (List.range s.size.bays).foldl (fun t b => if s.fenced b then t else t + share / 16 / 4096 * 4096 / 32) 0

/-- Word D0 of a record (R399). -/
def dayD0 (kind time stream : Nat) : W64 :=
  BitVec.ofNat 64 (kind * 2 ^ 60 + time % 2 ^ 44 * 2 ^ 12 + stream * 2 ^ 7)

/-- Replaces stream `n`. -/
def State.setStream (s : State) (n : Nat) (x : Stream) : State :=
  { s with day := { s.day with streams := s.day.streams.set n x } }

/-- Appends a record to a stream: a full stream overwrites its oldest records, or stops recording (R397). The answer's
second part says whether a record of the run was lost, and the first DSEQ lost. -/
def State.append (s : State) (n kind : Nat) (d1 d2 : W64) (d3x : Nat) : State × Option Nat :=
  let x := s.day.streams.getD n {}
  let cap := s.streamCap n
  let r : DayRec :=
    { d0 := dayD0 kind s.time n, d1 := d1, d2 := d2,
      d3 := BitVec.ofNat 64 (d3x % 2 ^ 32 * 2 ^ 32 + x.next % 2 ^ 32) }
  if x.recs.length < cap then
    ((s.setStream n { x with recs := x.recs ++ [r], next := x.next + 1 }).bump 0x2E00 8, none)
  else if s.obj 0x2E00 3 == 1 || cap == 0 then
    ((s.setStream n { x with halted := true }).bump 0x2E00 9, some (x.next % 2 ^ 32))
  else
    let gone := x.recs.length + 1 - cap
    let first := max x.runFrom (x.next - x.recs.length)
    (((s.setStream n { x with recs := x.recs.drop gone ++ [r], next := x.next + 1 }).bump 0x2E00 8).bump 0x2E00 9 gone,
      if first < x.next - x.recs.length + gone then some (first % 2 ^ 32) else none)

/-- Sets a run flag; a setting writes a MARK record (R393, R398). The second part is as of `State.append`. -/
def State.markFlag (s : State) (b cause : Nat) : State × Option Nat :=
  let old := s.obj 0x2E00 6
  if bit old b then (s, none) else
  let s := s.setObj 0x2E00 6 (old ||| 2 ^ b)
  if s.obj 0x2E00 1 == 1 then
    s.append 24 8 (BitVec.ofNat 64 (old ||| 2 ^ b)) (BitVec.ofNat 64 cause) 0
  else (s, none)

/-- The kind of a record (R399). -/
def DayRec.kind (r : DayRec) : Nat := r.d0.toNat / 2 ^ 60

/-- Compares a record with the recording being replayed (R401, R403); the streams other than contributions. -/
def State.replayCompare (s : State) (n kind : Nat) (d1 d2 : W64) (d3x : Nat) : State :=
  if s.obj 0x2E00 0x0B != 2 && s.obj 0x2E00 0x0B != 3 then s else
  if kind == 4 || kind == 8 || kind == 11 || s.day.diverged.any (fun d => d.1 == n) then s else
  let p := getA s.day.pos n 0
  match (getA s.day.loaded n []).drop p |>.filter (fun r => r.kind != 4 && r.kind != 8 && r.kind != 11) with
  | [] => s
  | r :: _ =>
    let same := r.kind == kind && (kind == 1 || (r.d1 == d1 && r.d2 == d2 &&
      r.d3 >>> 32 == BitVec.ofNat 64 (d3x % 2 ^ 32)))
    let q := p + 1 + (((getA s.day.loaded n []).drop p).takeWhile (fun x => x != r)).length
    if same then { s with day := { s.day with pos := setA s.day.pos n q 0 } }
    else
      let sq := r.d3.toNat % 2 ^ 32
      { (s.setObj 0x2E01 (n + 1) (2 ^ 32 + sq)).setObj 0x2E00 0x0B 3 with
        day := { s.day with diverged := s.day.diverged ++ [(n, sq, r)] } }

/-- The first record of a run that is lost sets INCOMPLETE and is told by a LOST record (R393, R398; log 20). -/
def State.noteLost (s : State) (n first count : Nat) : State :=
  if bit (s.obj 0x2E00 6) 2 then s
  else (((s.append n 11 (BitVec.ofNat 64 first) (BitVec.ofNat 64 count) 0).1).markFlag 2 11).1

/-- Sets a run flag, with its MARK record; a record lost to that sets INCOMPLETE (R393). -/
def State.setFlag (s : State) (b cause : Nat) : State :=
  let r := s.markFlag b cause
  match r.2 with
  | none => r.1
  | some first => r.1.noteLost 24 first 1

/-- The records of a bay's stream are lost with the contents of its Carrel (R356, R393, R398, R471; log 20). -/
def State.loseStream (s : State) (b : Nat) : State :=
  let x := s.day.streams.getD b {}
  let first := max x.runFrom (x.next - x.recs.length)
  let t := if x.recs.isEmpty then s else (s.setStream b { x with recs := [] }).bump 0x2E00 9 x.recs.length
  if first < x.next && !x.recs.isEmpty then t.noteLost b (first % 2 ^ 32) (x.next - first) else t

/-- Writes a Daybook record while recording is on, or whatever its state when `always` (R212, R398). -/
def State.record (s : State) (n kind : Nat) (d1 d2 : W64) (d3x : Nat := 0) (always : Bool := false) : State :=
  let s := s.replayCompare n kind d1 d2 d3x
  if s.obj 0x2E00 1 == 1 || always then
    let r := s.append n kind d1 d2 d3x
    match r.2 with
    | none => r.1
    | some first => r.1.noteLost n first 1
  else s

/-! ### Registered items (R454 to R456) -/

/-- A delay field of a record: Registry cycles after T0 (R456). -/
def stampField (t0 : Nat) : Option Nat → Nat
  | none => 0xFFFFF
  | some t => if t - t0 ≤ 0xFFFFD then t - t0 else 0xFFFFE

/-- The record of a tagged request, words I0 to I4 (R456). -/
def itemRecord (g : Tagged) (st : Nat) (t6 : Option Nat) : List W64 :=
  let h := g.hdr
  let i := g.stamp
  let f := stampField i.t0
  [BitVec.ofNat 64 (h.srcid.toNat * 2 ^ 44 + h.tag.toNat * 2 ^ 28 + h.opcode.toNat * 2 ^ 20 + h.tclass.toNat * 2 ^ 14 +
      g.port * 2 ^ 8 + i.bay * 2 ^ 3),
    BitVec.ofNat 64 h.addr.toNat,
    BitVec.ofNat 64 (i.t0 % 2 ^ 44 * 2 ^ 20 + st * 2 ^ 16 + i.pc * 2 ^ 10 + b2n i.chit * 2 ^ 9),
    BitVec.ofNat 64 (f i.d1 * 2 ^ 40 + f i.d2 * 2 ^ 20 + f i.d3),
    BitVec.ofNat 64 (f i.d4 * 2 ^ 40 + f i.d5 * 2 ^ 20 + f t6)]

/-- Two headers of one request: its SRCID and TAG. -/
def Tagged.isOf (g : Tagged) (port : Nat) (h : Hdr) : Bool :=
  g.port == port && g.hdr.srcid == h.srcid && g.hdr.tag == h.tag

/-- Stamps the record of a tagged request; the block's own requests, with opcode 0, have none. -/
def State.stamp (s : State) (port : Nat) (h : Hdr) (f : ItemStamp → ItemStamp) : State :=
  if h.opcode = 0 then s else
  let l := s.test.tagged.map fun g => if g.isOf port h then { g with stamp := f g.stamp } else g
  { s with test := { s.test with tagged := l } }

/-- Commits the record of a tagged request to the ring (R455). -/
def State.commitItem (s : State) (port : Nat) (h : Hdr) (st : Nat) (t6 : Option Nat) : State :=
  match s.test.tagged.find? (·.isOf port h) with
  | none => s
  | some g =>
    { s.bump 0x3690 4 with
      test := { s.test with tagged := s.test.tagged.erase g, items := (itemRecord g st t6 :: s.test.items).take 1024 } }

/-! ### Ports, credits and the wire (R37 to R44, R56) -/

/-- The flits of a message: its header and its data flits (R36, R48). -/
def flitsOf (data : List Byte) : Nat := 1 + ceilDiv data.length 64

/-- The eight words of a header flit (R42). -/
def hdrWords (h : Hdr) : List W64 := [
  h.opcode ++ h.mclass ++ (BitVec.ofBool h.escape) ++ (BitVec.ofBool h.last) ++ h.status ++ h.tclass ++ h.domain ++
    h.rsv0 ++ h.srcid ++ h.len,
  h.rsv1 ++ h.addr,
  (BitVec.ofBool h.csg) ++ (BitVec.ofBool h.ord) ++ (BitVec.ofBool h.sync) ++ (BitVec.ofBool h.rsv2) ++ h.cid ++ h.seq ++
    h.tag ++ h.cgen ++ h.rsv3,
  h.w3, h.w4, h.w5, h.w6, h.hcrc ++ h.rsv7]

/-- The header that eight words spell (R42). -/
def hdrOfWords (w0 w1 w2 w3 w4 w5 w6 w7 : W64) : Hdr where
  opcode := w0.extractLsb' 56 8
  mclass := w0.extractLsb' 54 2
  escape := w0.getLsbD 53
  last := w0.getLsbD 52
  status := w0.extractLsb' 48 4
  tclass := w0.extractLsb' 42 6
  domain := w0.extractLsb' 34 8
  rsv0 := w0.extractLsb' 32 2
  srcid := w0.extractLsb' 12 20
  len := w0.extractLsb' 0 12
  rsv1 := w1.extractLsb' 54 10
  addr := w1.extractLsb' 0 54
  csg := w2.getLsbD 63
  ord := w2.getLsbD 62
  sync := w2.getLsbD 61
  rsv2 := w2.getLsbD 60
  cid := w2.extractLsb' 48 12
  seq := w2.extractLsb' 32 16
  tag := w2.extractLsb' 16 16
  cgen := w2.extractLsb' 12 4
  rsv3 := w2.extractLsb' 0 12
  w3 := w3
  w4 := w4
  w5 := w5
  w6 := w6
  hcrc := w7.extractLsb' 32 32
  rsv7 := w7.extractLsb' 0 32

/-- The 64 bytes of a header flit. -/
def hdrBytes (h : Hdr) : List Byte := (hdrWords h).flatMap fun w => toBytes 8 w.toNat

/-- A header with its HCRC: CRC-32C over bytes 0 to 59 (R42). -/
def hdrSeal (h : Hdr) : Hdr := { h with hcrc := BitVec.ofNat 32 (crc32c ((hdrBytes h).take 60)) }

/-- The outbound credits of a channel change at an instant (R37, R40, R56). -/
def PortSt.setCredits (q : PortSt) (now vc v : Nat) : PortSt :=
  let old := q.credits.getD vc 0
  { q with credits := q.credits.set vc v
           covered := (vc, old, now) :: q.covered.filter fun e => !(e.1 == vc && e.2.1 ≤ old) }

/-- The last instant at which a channel's credits covered `n` flits (R56). -/
def PortSt.lastCover (q : PortSt) (vc n : Nat) : Nat :=
  (q.covered.filter fun e => e.1 == vc && n ≤ e.2.1).foldl (fun t e => max t e.2.2) 0

/-- A message leaves port `p`; `esc` says on which channel. Its credits are deducted, and the record of a tagged request is
committed (R40, R56, R455). -/
def State.depart (s : State) (p : Nat) (h : Hdr) (data : List Byte) (esc : Bool) : State :=
  let h := hdrSeal { h with escape := esc }
  let vc := h.mclass.toNat + if esc then 4 else 0
  let q := s.port p
  let s := s.setPort p (q.setCredits s.now vc (q.credits.getD vc 0 - flitsOf data))
  let s := s.emit (.msg p h data)
  let o : Occ :=
    { code := 0x0103, cls := some h.tclass.toNat, port := some p, dom := some h.domain.toNat,
      addr := if h.addr = 0 then none else some h.addr.toNat }
  let s := s.count o
  let s := if data.isEmpty then s else s.count { o with code := 0x0105, adds := ceilDiv data.length 64 }
  let s := s.count { code := 0x0140, adds := Config.hubFlits 1 s.wire.length }
  let s := if esc then s.count { o with code := 0x0106 } else s
  let s := if h.mclass = 1 && h.status != 0 then s.count { o with code := 0x0108 } else s
  if h.mclass = 1 then s.commitItem p h h.status.toNat (some s.time) else s

/-- The block sends a message on port `p`: at once while it holds credits for every flit and nothing of the class waits
before it, else it waits on the port (R40). On a port out of service the message is discarded (R44). -/
def State.send (s : State) (p : Nat) (h : Hdr) (data : List Byte := []) : State :=
  if !s.inService p then s else
  let q := s.port p
  if q.outq.any (fun m => m.hdr.mclass == h.mclass) || q.credits.getD h.mclass.toNat 0 < flitsOf data then
    s.setPort p { q with outq := q.outq ++ [{ hdr := h, data := data, since := s.now }] }
  else s.depart p h data false

/-- The credit returns that grant `n` flits on a virtual channel (R37): whole multiples of 256 scaled, the rest unscaled. -/
def creditWords (vc n : Nat) : List (BitVec 9) :=
  let w (scale cnt : Nat) : BitVec 9 := BitVec.ofNat 9 (256 + vc * 32 + scale * 16 + cnt)
  let hi := n / 256
  let lo := n % 256
  (List.replicate (hi / 16) (w 1 15)) ++ (if hi % 16 = 0 then [] else [w 1 (hi % 16 - 1)]) ++
  (List.replicate (lo / 16) (w 0 15)) ++ (if lo % 16 = 0 then [] else [w 0 (lo % 16 - 1)])

/-! ### Jostle slots (R457, R458) -/

/-- Fields of a Jostle slot (R457). -/
def jKind (w : Nat) : Nat := bits w 63 60
def jSel (w : Nat) : Nat := bits w 59 44
def jMag (w : Nat) : Nat := bits w 43 32
def jPexp (w : Nat) : Nat := bits w 31 27

/-- The slots in force, with their words: none while Jostle is off, none that a fence has ended (R459, R460). -/
def State.jSlots (s : State) : List (Nat × Nat) :=
  if s.test.jostleAt.isNone then []
  else ((List.range 16).filter fun i => !s.test.jostleEnded.contains i && jKind (s.obj 0x3810 (i + 1)) != 0).map
    fun i => (i, s.obj 0x3810 (i + 1))

/-- An opportunity of a slot: its generator steps, and the slot acts or not (R458). -/
def State.jActs (s : State) (i w : Nat) : Bool × State :=
  let g := lfsrStep (getA s.test.jostleGen i 1)
  let t := { s with test := { s.test with jostleGen := putA s.test.jostleGen i g } }
  if lfsrDraws (jPexp w) g then (true, t.bump 0x3800 5) else (false, t)

/-- A credit return of a normal pool that no hold withholds is an opportunity of each KIND 2 slot of its port and class: the
first that acts begins a hold, in port-island cycles of 0.5 ns (R28, R457; log 21). -/
def State.jostleHold (s : State) (p vc : Nat) : State :=
  if (s.port p).holds.any fun h => h.cls == vc then s
  else (s.jSlots.filter fun e => jKind e.2 == 2 && jSel e.2 % 256 == p + 64 * vc).foldl (fun t e =>
    if (t.port p).holds.any fun h => h.cls == vc then t
    else match t.jActs e.1 e.2 with
      | (true, u) => u.setPort p { u.port p with holds := (u.port p).holds ++ [{ cls := vc, until_ := u.now + ceilDiv (jMag e.2) 2 }] }
      | (false, u) => u) s

/-- Flits leave an inbound pool of a port, and their credits are returned (R41), unless a Jostle hold withholds them
(R457). Channels are numbered as the lists of a port. -/
def State.freePool (s : State) (p vc n : Nat) : State :=
  let s := s.jostleHold p vc
  let q := s.port p
  let q1 := { q with free := q.free.set vc (q.free.getD vc 0 + n) }
  match q.holds.find? (fun h => h.cls == vc) with
  | some h => s.setPort p { q1 with holds := q.holds.map fun x => if x == h then { x with withheld := x.withheld + n } else x }
  | none => (creditWords vc n).foldl (fun t c => t.emit (.credit p c)) (s.setPort p q1)

/-- The inbound pool of a message: that of its class, or the class's escape slot, as SLOT.VC of its slots says (R37, R38, R43). -/
def poolOf (a : Arrival) (vc : Nat) : Nat := vc + if a.esc then 4 else 0

/-- The inbound pools a port advertises (R38): REQ, RSP, FWD, COL, then the escape slots. -/
def initialPools : List Nat := [4096, 256, 4096, 4096, 2049, 2049, 2049, 2049]

/-- The twelve returns of R41. -/
def initialReturns : List (BitVec 9) :=
  let w (vc scale cnt : Nat) : BitVec 9 := BitVec.ofNat 9 (256 + vc * 32 + scale * 16 + cnt)
  [w 0 1 15, w 1 1 0, w 2 1 15, w 3 1 15, w 4 1 7, w 4 0 0, w 5 1 7, w 5 0 0, w 6 1 7, w 6 0 0, w 7 1 7, w 7 0 0]

/-- Enables a port: the pools are empty, no credit is held, and the block advertises its own (R41, R336). -/
def State.enablePort (s : State) (p : Nat) : State :=
  let q := s.port p
  let s := s.setPort p { q with
    up := true, linkDown := false, credits := List.replicate 8 0, covered := [], free := initialPools, outq := [], discards := [] }
  if s.inService p then initialReturns.foldl (fun t c => t.emit (.credit p c)) s else s

/-! ### Answers (R45 to R55, R470) -/

/-- The status codes (R53). -/
abbrev stOk : BitVec 4 := 0x0
abbrev stRetry : BitVec 4 := 0x1
abbrev stOversize : BitVec 4 := 0x2
abbrev stNomap : BitVec 4 := 0x3
abbrev stFenced : BitVec 4 := 0x4
abbrev stUncorr : BitVec 4 := 0x5
abbrev stTimeout : BitVec 4 := 0x6
abbrev stOwnerlost : BitVec 4 := 0x7
abbrev stShort : BitVec 4 := 0x8
abbrev stExcess : BitVec 4 := 0x9
abbrev stSaturated : BitVec 4 := 0xA
abbrev stInvalid : BitVec 4 := 0xB
abbrev stDenied : BitVec 4 := 0xC
abbrev stUnderflow : BitVec 4 := 0xD
abbrev stOverflow : BitVec 4 := 0xE

/-- The header of an answer: TCLASS, DOMAIN, SRCID and TAG are echoed (R42). -/
def answerHdr (a : Arrival) (opcode : BitVec 8) (st : BitVec 4) : Hdr :=
  { opcode := opcode, mclass := 1, status := st, tclass := a.hdr.tclass, domain := a.hdr.domain, srcid := a.hdr.srcid,
    tag := a.hdr.tag }

/-- Counts an answer that carries FENCED or UNCORR (R126, R302). -/
def State.tallyAnswer (s : State) (st : BitVec 4) : State :=
  if st = stFenced then s.bump 0x2050 5 else if st = stUncorr then s.bump 0x2C00 6 else s

/-- The sequence that a message belongs to: of its source, or of the partner block that sent an FWR (R52, R114). -/
def seqKey (a : Arrival) : SrcKey :=
  if a.hdr.opcode = 0x41 then { fwd := true, src := a.hdr.srcid.toNat % 4096 } else { src := a.hdr.srcid.toNat }

/-- The time of the last answer to an ORD request of a sequence, from which its state lives on (R52). -/
def State.noteAnswer (s : State) (a : Arrival) : State :=
  if a.hdr.ord then
    { s with seqs := s.seqs.map fun q => if q.key == seqKey a then { q with idleAt := s.now } else q }
  else s

/-- The answer to a request that the Registry executes: an admission, a FENCE, a Tally operation, a notice or a Catalogue access (R15,
R45). -/
def registryAnswer (a : Arrival) : Bool := [0x08, 0x0C, 0x0D, 0x0E, 0x0F].contains a.hdr.opcode.toNat

/-- Holds a Registry output until the twins' outputs agree (R16, R18). -/
def State.holdOut (s : State) (o : HeldOut) : State :=
  { s with twins := { s.twins with held := s.twins.held ++ [o] } }

/-- A frame or an interrupt of the Catalogue endpoint, which waits with the Registry's other outputs (R16, R18). -/
def State.emitBus (s : State) (w : Wire) : State := if s.twins.disputed then s.holdOut (.bus w) else s.emit w

/-- Sends an answer on the port that carried the request (R20). -/
def State.sendAnswer (s : State) (a : Arrival) (h : Hdr) (data : List Byte) : State :=
  ((s.tallyAnswer h.status).noteAnswer a).send a.port h data

/-- Answers a request; an answer of the Registry leaves it only once the twins' outputs agree (R16, R18, R20). -/
def State.answerWith (s : State) (a : Arrival) (h : Hdr) (data : List Byte := []) : State :=
  if s.twins.disputed && registryAnswer a then s.holdOut (.msg a h data) else s.sendAnswer a h data

/-- A CMP (R45). -/
def State.cmp (s : State) (a : Arrival) (st : BitVec 4) : State := s.answerWith a (answerHdr a 0x22 st)

/-- An ATOMR with OLD (R46). -/
def State.atomr (s : State) (a : Arrival) (st : BitVec 4) (old : W64) : State :=
  s.answerWith a { answerHdr a 0x23 st with w4 := old }

/-- A MGMTR with an abort code and a value in its first bytes (R433). -/
def State.mgmtr (s : State) (a : Arrival) (st : BitVec 4) (abort : Nat) (value : List Byte) : State :=
  let g := ceilDiv value.length 32
  s.answerWith a { answerHdr a 0x24 st with w4 := BitVec.ofNat 64 abort, len := BitVec.ofNat 12 (g - 1) }
    (padTo (ceilDiv g 2 * 64) value)

/-- An RDR. Under a status other than OK or UNCORR it returns no data (R470); under UNCORR the mask flits follow (R55).
`bad` lists the failed granules, ascending.
It carries the ADDR of its request: R46 names what an RDR echoes and R42 is silent on ADDR (DESIGN CHOICE, log 44). -/
def State.rdr (s : State) (a : Arrival) (st : BitVec 4) (data : List Byte) (bad : List Nat) : State :=
  let h := { answerHdr a 0x21 st with addr := a.hdr.addr }
  let h := if a.hdr.csg then { h with csg := true, cid := a.hdr.cid, cgen := a.hdr.cgen, w4 := a.hdr.w4 &&& 0xFFFFFFFF } else h
  if st = stOk then s.answerWith a { h with len := a.hdr.len } (padTo (ceilDiv data.length 64 * 64) data)
  else if st = stUncorr then
    let n := a.hdr.len.toNat + 1
    let mask := bad.foldl (fun m i => m ||| 2 ^ i) 0
    s.answerWith a
      { h with len := a.hdr.len, w3 := BitVec.ofNat 64 (2 ^ 28 + bad.headD 0 * 2 ^ 16 + bad.length) }
      (padTo (ceilDiv data.length 64 * 64) data ++ toBytes (64 * ceilDiv n 512) mask)
  else s.answerWith a h (zeros 64)

/-- Answers a request with a status alone, in the form its opcode has (R45); DENIED to an opcode that the block does not receive on the
class takes the form of the opcode all the same, CMP for one that the table does not have (DESIGN CHOICE, log 44). A MGMTR carries no
RETRY and no TIMEOUT (R53): a MGMT with ORD is also refused under R433, and DENIED comes first (R54). -/
def State.refuse (s : State) (a : Arrival) (st : BitVec 4) : State :=
  let op := a.hdr.opcode
  if op = 0x01 then s.rdr a st [] []
  else if op = 0x04 then s.atomr a st 0
  else if op = 0x0D then
    let top := a.hdr.w3.toNat % 256
    if top = 0x00 || top = 0x03 || top = 0x04 then s.atomr a st 0 else s.cmp a st
  else if op = 0x0F then s.mgmtr a (if st = stRetry || st = stTimeout then stDenied else st) 0 []
  else if op = 0x41 then s.answerWith a (answerHdr a 0x26 st)
  else if op = 0x42 then s.answerWith a (answerHdr a 0x27 st)
  else s.cmp a st

/-! ### Management events (R438 to R440) -/

/-- The error register 0x1001:00 (R441). -/
def State.errorReg (s : State) : Nat :=
  b2n (s.health.state != 0) + if s.events.queue.any (fun e => s.now ≤ e.etime + 1000000000) then 128 else 0

/-- The 16 bytes of an event (R438). -/
def MgmtEvent.bytes (e : MgmtEvent) : List Byte :=
  toBytes 8 (e.ecode % 65536 * 2 ^ 48 + e.ebay * 2 ^ 40 + e.eaux % 256 * 2 ^ 32 + e.earg % 2 ^ 32) ++
  toBytes 8 (e.eseq % 2 ^ 20 * 2 ^ 44 + e.etime % 2 ^ 44)

/-- The identifier of the frames that an SDO channel sends (R430). -/
def State.sdoTx (s : State) (ch : Nat) : Nat := if ch = 0 then 0x580 + s.buses.nodeId else s.obj (0x1200 + ch) 2

/-- Replaces the transfer of an SDO channel. -/
def State.setSdo (s : State) (ch : Nat) (x : Option Sdo) : State :=
  { s with buses := { s.buses with sdo := match x with | some y => putA s.buses.sdo ch y | none => delA s.buses.sdo ch } }

/-- The transfer of an SDO channel. -/
def State.sdo (s : State) (ch : Nat) : Option Sdo := (s.buses.sdo.find? fun e => e.1 == ch).map (·.2)

/-- The frame that begins an upload of more than four bytes, segmented or by blocks (R430; CiA 301, log 32). -/
def uploadInit (x : Sdo) : List Byte :=
  toBytes 1 (if x.block then 0xC6 else 0x41) ++ toBytes 2 x.index ++ toBytes 1 x.sub ++ toBytes 4 x.size

/-- An event read that waited over CAN FD is answered: its upload begins. -/
def State.sdoResume (s : State) (ch : Nat) (x : Sdo) (value : List Byte) : State :=
  let x := { x with wait := false, buf := value, size := value.length, at_ := s.now }
  (s.setSdo ch (some x)).emitBus (.can (s.sdoTx ch) (uploadInit x))

/-- Sends the verdict of a Catalogue access once the twins agree on it: a MGMTR for an in-band one, the answer of a pending I3C request or SDO upload, else the
verdict on the session's transport (R430, R432, R433). -/
def State.catAnswer (s : State) (k : Sess) (a : Option Arrival) (abort : Nat) (value : List Byte) : State :=
  if s.twins.disputed then s.holdOut (.cat k a abort value)
  else match a with
  | some m => s.mgmtr m stOk abort value
  | none =>
    match k with
    | .can ch =>
      (match s.sdo ch with
        | some x => if x.wait then s.sdoResume ch x value else s.emit (.cat k abort value)
        | none => s.emit (.cat k abort value))
    | .i3c =>
      (match s.buses.i3cAnswer with
        | some (1, _, _) => { s with buses := { s.buses with i3cAnswer := some (if abort = 0 then 0 else 2, abort, value) } }
        | _ => s.emit (.cat k abort value))
    | _ => s.emit (.cat k abort value)

/-- The twins' outputs agree, or one twin is trusted alone: what was held leaves, in its order (R17, R18). -/
def State.releaseOut (s : State) : State :=
  s.twins.held.foldl (fun t o => match o with
    | .msg a h data => t.sendAnswer a h data
    | .cat k a abort value => t.catAnswer k a abort value
    | .bus w => t.emit w) { s with twins := { s.twins with disputed := false, held := [] } }

/-- The disputed outputs never leave a block that stops: what they would have answered is answered as everything else is then (R18,
R19). -/
def State.dropOut (s : State) : State :=
  s.twins.held.foldl (fun t o => match o with
    | .msg a _ _ => t.refuse a stFenced
    | .cat _ (some a) _ _ => t.refuse a stFenced
    | .cat k none _ _ => t.catAnswer k none 0x08000022 []
    | .bus _ => t) { s with twins := { s.twins with disputed := false, held := [] } }

/-- The session record of a key, if it is open. -/
def State.session (s : State) (k : Sess) : Option Session := s.sessions.find? (fun x => x.key == k)

/-- Replaces a session record. -/
def State.setSession (s : State) (x : Session) : State :=
  { s with sessions := s.sessions.map fun y => if y.key == x.key then x else y }

/-- Moves a session's read pointer over the events already overwritten, counting them as lost (R440). -/
def State.skipLost (s : State) (x : Session) : Session :=
  let oldest := s.events.next - s.events.queue.length
  if x.evPtr < oldest then { x with evPtr := oldest, evLost := x.evLost + (oldest - x.evPtr) } else x

/-- The next event of a session, and the session after reading it (R440). -/
def State.nextEvent (s : State) (x : Session) : Option (MgmtEvent × Session) :=
  let x := s.skipLost x
  if x.evPtr < s.events.next then
    (s.events.queue[s.events.next - 1 - x.evPtr]?).map fun e => (e, { x with evPtr := x.evPtr + 1 })
  else none

/-- Answers the event reads that wait: in each session the first that waits (R440). -/
def State.wakeReaders (s : State) : State :=
  s.sessions.foldl (fun t x =>
    match x.evWait with
    | [] => t
    | (_, a) :: ws =>
      match t.nextEvent x with
      | none => t
      | some (e, x') => (t.setSession { x' with evWait := ws }).catAnswer x.key a 0 e.bytes) s

/-- Raises a management event (R438 to R440). -/
def State.event (s : State) (code bay : Nat) (aux : Nat := 0) (arg : Nat := 0) : State :=
  let e : MgmtEvent := { eseq := s.events.next, etime := s.now, ecode := code, ebay := bay, eaux := aux, earg := arg }
  let s := { s.bump 0x2090 1 with events := { s.events with queue := (e :: s.events.queue).take 256, next := s.events.next + 1 } }
  let due (last : Option Nat) : Bool := match last with | none => true | some t => t + 1000000 ≤ s.now
  let s := if bit (s.obj 0x2090 2) 0 && s.buses.nodeId != 0 && due s.events.lastEmcy then
      { s.emitBus (.can (0x80 + s.buses.nodeId)
          (toBytes 2 code ++ toBytes 1 s.errorReg ++ toBytes 1 bay ++ toBytes 4 arg)) with
        events := { s.events with lastEmcy := some s.now } }
    else s
  let s := if bit (s.obj 0x2090 2) 1 && s.buses.i3cEvents && s.buses.i3cDyn != 0 && due s.events.lastIbi then
      { s.emitBus (.ibi 1) with events := { s.events with lastIbi := some s.now } }
    else s
  s.wakeReaders

/-- A Hard Limit engages (R387, R439). -/
def State.hardLimit (s : State) (n : Nat) : State := (s.bump 0x5F10 n).event 0x0070 0xFF n

/-- Sets TIMING for an event of R393, in determinism mode. -/
def State.markTiming (s : State) (cause : Nat := 0) : State := if s.determinism then s.setFlag 1 cause else s

end Sys2Proof.Machine
end

