-- ==== Sys2Proof/Machine/Operands.lean ====
section
/-! DEFINITION. The operand fields of every opcode, the reserved bits that R11 refuses, the data flits a message must carry,
and the route slip (R11, R45, R46, R48, R127 to R142, R169). -/

namespace Sys2Proof

open Sys2Proof.Machine

/-- Operand fields (R46). -/
def Arrival.asize (a : Arrival) : Bool := a.hdr.w3.getLsbD 4
def Arrival.aop (a : Arrival) : Nat := bits a.hdr.w3.toNat 3 0
def Arrival.lastBe (a : Arrival) : Nat := bits a.hdr.w3.toNat 63 32
def Arrival.firstBe (a : Arrival) : Nat := bits a.hdr.w3.toNat 31 0
def Arrival.tile (a : Arrival) : Nat := bits a.hdr.w4.toNat 31 0
def Arrival.ackreq (a : Arrival) : Bool := a.hdr.w3.getLsbD 0
def Arrival.flags (a : Arrival) : BitVec 4 := a.hdr.w3.extractLsb' 0 4
def Arrival.fkind (a : Arrival) : Nat := bits a.hdr.w3.toNat 1 0
def Arrival.tally (a : Arrival) : Nat := bits a.hdr.w3.toNat 45 32
def Arrival.top (a : Arrival) : Nat := bits a.hdr.w3.toNat 7 0
def Arrival.targ (a : Arrival) : BitVec 32 := a.hdr.w4.extractLsb' 0 32
def Arrival.lostdom (a : Arrival) : BitVec 8 := a.hdr.w3.extractLsb' 0 8
def Arrival.mwrite (a : Arrival) : Bool := a.hdr.w3.getLsbD 24
def Arrival.msub (a : Arrival) : Nat := bits a.hdr.w3.toNat 23 16
def Arrival.mindex (a : Arrival) : Nat := bits a.hdr.w3.toNat 15 0

/-- LEN+1 (R42). -/
def Arrival.granules (a : Arrival) : Nat := a.hdr.len.toNat + 1

/-- Bytes of the request's span (R49). -/
def Arrival.span (a : Arrival) : Nat := a.granules * 32

/-- The LEN+1 granules of a message's data. The padding of R48 is not looked at: a message in which it is not zero is accepted
(DESIGN CHOICE, log 44). -/
def Arrival.payload (a : Arrival) : List Byte := a.data.take a.span

end Sys2Proof

namespace Sys2Proof.Machine

/-- The operand bits that an opcode uses in W3 to W6 (R46). -/
def operandMask (op : BitVec 8) (csg : Bool) : List W64 :=
  let t : W64 := if csg then 0xFFFFFFFF else 0
  if op = 0x01 then [0, t, 0, 0]
  else if op = 0x02 then [0xFFFFFFFFFFFFFFFF, t, 0, 0]
  else if op = 0x04 then [0x1F, 0xFFFFFFFFFFFFFFFF, 0xFFFFFFFFFFFFFFFF, 0]
  else if op = 0x0C then [3, 0, 0, 0]
  else if op = 0x0D then [0x3FFF000000FF, 0xFFFFFFFF, 0, 0]
  else if op = 0x0E then [0xFF, 0, 0, 0]
  else if op = 0x0F then [0x1FFFFFF, 0, 0, 0]
  else if op = 0x61 then [1, 0xFFFFFFFF, 0, 0]
  else if op = 0x42 || op = 0x62 then [0xF, 0xFFFFFFFF, 0, 0]
  else [0, 0, 0, 0]

/-- A header breaks R11: a reserved field that is not zero. -/
def hdrReserved (h : Hdr) : Bool :=
  h.rsv0 != 0 || h.rsv1 != 0 || h.rsv2 || h.rsv3 != 0 || h.rsv7 != 0 ||
  (List.zipWith (fun (w m : W64) => w &&& ~~~m != 0) [h.w3, h.w4, h.w5, h.w6] (operandMask h.opcode h.csg)).any id

/-- The bytes of data flits that an opcode and LEN require (R45, R48). -/
def dataNeeded (a : Arrival) : Nat :=
  let op := a.hdr.opcode
  if op = 0x02 || op = 0x08 || op = 0x41 || op = 0x42 || op = 0x61 || op = 0x62 || (op = 0x0F && a.mwrite) then
    ceilDiv a.granules 2 * 64
  else 0

/-- A message is malformed under R11, or does not carry the data flits that its opcode and LEN require (R49). -/
def malformed (a : Arrival) : Bool := hdrReserved a.hdr || a.data.length != dataNeeded a

/-- The byte enables of granule `i` of a WR (R46): the last granule's are ignored when LEN = 0. -/
def byteEnables (a : Arrival) (i : Nat) : Nat :=
  if i = 0 then a.firstBe else if i + 1 = a.granules then a.lastBe else 0xFFFFFFFF

/-- Merges enabled bytes over old ones (R99). -/
def mergeBytes (be : Nat) (new old : List Byte) : List Byte :=
  (List.range 32).map fun i => if bit be i then new.getD i 0 else old.getD i 0

/-! ### The route slip -/

/-- Place of a station in the order of R127, by STYPE. -/
def stationRank (t : Nat) : Nat :=
  if t ≤ 3 then t else if t = 7 then 4 else if t = 4 || t = 5 then 5 else if t = 6 then 6 else t - 1

/-- A word has bits outside a mask. -/
def extra (w mask : Nat) : Bool := w - (w &&& mask) != 0

/-- Whether a Collating or Ledger record is refused (R136 to R138, R169). -/
def collateRefused (p : Slip) : Bool :=
  13 < p.ifmt || 13 < p.ofmt || 6 < p.op || p.count == 0 || p.pscale < -64 || 63 < p.pscale ||
  p.lscale < -160 || 127 < p.lscale ||
  (p.bitwise && (!(p.ifmt == 10 || p.ifmt == 11) || p.ofmt != p.ifmt)) ||
  ([p.ifmt, p.ofmt].any fun f => (f == 12 && !(p.ledger && !p.l128)) || (f == 13 && !(p.ledger && p.l128))) ||
  (5 ≤ p.ofmt && p.ofmt ≤ 9) ||
  ((p.ifmt == 10 || p.ifmt == 11) && p.ofmt < 10) ||
  (p.ifmt ≤ 9 && !(p.ofmt ≤ 4 || 12 ≤ p.ofmt)) ||
  ((12 ≤ p.ifmt || 12 ≤ p.ofmt) && p.op != 0) ||
  (p.op == 6 && 9 < p.ifmt) || (p.op != 6 && p.pscale != 0) ||
  131072 < p.elems * elemBytes p.ofmt

/-- A destination entry of a Dispatch record (R141). -/
def parseDest (da db : Nat) : Option Dest :=
  let d : Dest :=
    { push := bits da 63 60 == 1, port := bits da 59 54, daddr := bits da 53 0, dstid := BitVec.ofNat 20 (bits db 63 44)
      pcid := BitVec.ofNat 12 (bits db 43 32), pcgen := BitVec.ofNat 4 (bits db 31 28), tileofs := bits db 27 0 }
  if 1 < bits da 63 60 || 47 < d.port then none
  else if d.push then (if d.dstid != 0 || d.daddr % 2 ^ 42 != 0 then none else some d)
  else if d.pcid != 0 || d.pcgen != 0 || d.tileofs != 0 then none else some d

/-- One station record, as its words, over the slip read so far (R131 to R141). -/
def parseStation (w : List Nat) (p : Slip) : Option Slip :=
  let p0 := w.getD 0 0
  let p1 := w.getD 1 0
  let p2 := w.getD 2 0
  let p3 := w.getD 3 0
  let sg := bits p0 55 52
  let body := p0 % 2 ^ 52
  let t := p0 / 2 ^ 56
  if t = 1 then
    if sg != 0 || body % 2 ^ 44 != 0 || 2 ^ 40 ≤ p1 || p2 != 0 || p3 != 0 then none
    else some { p with cdom := BitVec.ofNat 8 (bits p0 51 44), srchi := bits p1 39 20, srclo := bits p1 19 0 }
  else if t = 2 then
    if sg != 0 || body != 0 || extra p1 0xFFFF0000FFFF || p2 != 0 || p3 != 0 then none
    else some { p with cburst := bits p1 47 32, crate := bits p1 15 0 }
  else if t = 3 then
    if sg != 0 || body != 0 || 2 ^ 54 ≤ p1 || 2 ^ 24 ≤ p2 || p2 % 32 != 0 || p3 != 0 then none
    else some { p with sorting := some (p1, p2) }
  else if t = 4 || t = 5 then
    let q : Slip :=
      { p with collating := true, ledger := t == 5, ifmt := bits p0 51 48, ofmt := bits p0 47 44, op := bits p0 43 40,
               pscale := signed 8 (bits p0 39 32), count := bits p0 19 0, l128 := t == 5 && bit p1 16,
               lscale := if t = 5 then signed 16 (bits p1 15 0) else 0 }
    if sg != 0 || bits p0 31 20 != 0 || p2 != 0 || p3 != 0 || (if t = 5 then 2 ^ 17 ≤ p1 else p1 != 0) || collateRefused q then none
    else some q
  else if t = 6 then
    if sg != 0 || body % 2 ^ 51 != 0 || p1 != 0 || p2 != 0 || p3 != 0 then none
    else some { p with shelving := true, evict := bit p0 51 }
  else if t = 7 then
    if sg != 0 || body != 0 || 2 ^ 54 ≤ p1 || 2 ^ 24 ≤ p2 || p2 % 32 != 0 || p3 != 0 then none
    else some { p with retrieval := some (p1, p2) }
  else if t = 8 then
    let n := bits p0 51 48
    let segs := (w.drop 4).take n
    if 8 < n || sg != ceilDiv n 4 || body % 2 ^ 48 != 0 || 2 ^ 54 ≤ p1 || p1 % 32 != 0 || p2 != 0 || p3 != 0 ||
       segs.any (fun a => 2 ^ 54 ≤ a || a % 2 ^ 24 != 0) || (w.drop (4 + n)).any (· != 0) then none
    else some { p with postmark := some (p1, segs) }
  else if t = 9 then
    let n := bits p0 51 48 + 1
    let ds := (List.range n).map fun i => parseDest (w.getD (4 + 2 * i) 0) (w.getD (5 + 2 * i) 0)
    if sg != ceilDiv n 2 || body % 2 ^ 48 != 0 || p1 != 0 || p2 != 0 || p3 != 0 || (w.drop (4 + 2 * n)).any (· != 0) ||
       ds.any (·.isNone) then none
    else some { p with dests := ds.filterMap id }
  else none

/-- The station records, in the order of R127, each at most once (R129); the granules left must be none. -/
def parseStations : Nat → Nat → List Nat → Slip → Option Slip
  | 0, _, w, p => if w.isEmpty then some p else none
  | n + 1, rank, w, p =>
    let t := w.getD 0 0 / 2 ^ 56
    let len := 4 * (bits (w.getD 0 0) 55 52 + 1)
    if w.length < len || t = 0 || 9 < t || stationRank t ≤ rank then none
    else match parseStation (w.take len) p with
      | none => none
      | some q => parseStations n (stationRank t) (w.drop len) q

/-- The records that a kind must and may carry (R128). -/
def kindAllows (p : Slip) (intake franking : Bool) : Bool :=
  let pm := p.postmark.isSome
  let dsp := !p.dests.isEmpty
  if p.kind = 0 then p.sorting.isSome && (p.retrieval.isSome || p.shelving) && !p.collating && !pm && !dsp
  else if p.kind = 1 then p.sorting.isSome && p.collating && (p.shelving || dsp)
  else if p.kind = 2 then p.retrieval.isSome && dsp && p.sorting.isNone && !p.collating && !p.shelving && !pm
  else !intake && !franking

/-- A route slip from the data of an ADMIT (R129 to R141): none where it is refused. `dom` is the ADMIT's DOMAIN. -/
def parseSlip (a : Arrival) : Option Slip :=
  let w := leWords 8 (a.granules * 4) a.payload
  let s0 := w.getD 0 0
  let s1 := w.getD 1 0
  let s2 := w.getD 2 0
  let kind := bits s0 55 52
  let ct := bit s1 31
  let tt := bit s1 30
  let p : Slip :=
    { kind := kind, ntiles := bits s0 31 0, tsize := bits s0 47 45, ctimeout := bits s1 63 48, window := bits s1 45 32
      ctally := if ct then some (bits s1 13 0) else none
      ttally := if tt then some (bits s1 27 14) else none
      rcid := bits s2 59 48, rcgen := BitVec.ofNat 4 (bits s2 15 12), cdom := a.hdr.domain }
  if 31 < a.hdr.len.toNat || bits s0 63 56 != 2 || 3 < kind || bits s0 44 32 != 0 || bits s1 47 46 != 0 || bits s1 29 28 != 0 ||
     extra s2 0x0FFF00000000F000 || w.getD 3 0 != 0 || 8 < bits s0 51 48 || (!ct && bits s1 13 0 != 0) ||
     (!tt && bits s1 27 14 != 0) then none
  else if kind = 3 then
    if s1 != 0 || p.ntiles != 0 || p.tsize != 3 || bits s0 51 48 != 0 || w.length != 4 then none else some p
  else if p.rcid != 0 || p.rcgen != 0 || p.ntiles == 0 || (kind = 0 && p.window != 0) ||
      (kind != 0 && (p.window == 0 || 8192 < p.window)) then none
  else match parseStations (bits s0 51 48) 0 (w.drop 4) p with
    | none => none
    | some q =>
      if !kindAllows q false false || (kind = 0 && (match q.retrieval with | some r => r.1 != 0 | none => false)) then none
      else some q

/-- Address of destination tile `i` (R134). -/
def Slip.tileAddr (p : Slip) (i : Nat) : Nat :=
  match p.sorting with
  | some (base, stride) => (base + i * (if stride = 0 then p.outBytes else stride))
  | none => 0

/-- Address of source tile `i` (R135, R151). -/
def Slip.srcAddr (p : Slip) (i : Nat) : Nat :=
  match p.retrieval with
  | some (src, stride) => (src + i * (if stride = 0 then p.tileBytes else stride))
  | none => 0

end Sys2Proof.Machine
end

