-- ==== Sys2Proof/Machine/Shelf.lean ====
section
/-! DEFINITION. The Shelf List: entry fields, translation, access checks, stage validation and the change of entries at a
commit, at the end of a move and at a fence (R64 to R93). -/

namespace Sys2Proof.Machine

/-- Fields of an entry (R68). STATE: 0 absent, 1 present, 2 fenced, 3 moving. -/
def Entry.state (e : Entry) : Nat := bits e.e0.toNat 63 62
def Entry.grain (e : Entry) : Nat := bits e.e0.toNat 61 59
def Entry.hash (e : Entry) : Bool := bit e.e0.toNat 58
def Entry.frame (e : Entry) : Nat := bits e.e0.toNat 57 45
def Entry.owner (e : Entry) : Nat := bits e.e0.toNat 44 37
def Entry.cfen (e : Entry) : Bool := bit e.e0.toNat 36
def Entry.cfloor (e : Entry) : Nat := bits e.e0.toNat 35 30
def Entry.bayset (e : Entry) : Nat := bits e.e0.toNat 23 0
def Entry.mpartner (e : Entry) : Nat := bits e.e2.toNat 27 16
def Entry.ledger (e : Entry) : Bool := bit e.e2.toNat 4
def Entry.mirror (e : Entry) : Bool := bit e.e2.toNat 3
def Entry.ro (e : Entry) : Bool := bit e.e2.toNat 2
def Entry.pktbuf (e : Entry) : Bool := bit e.e2.toNat 1
def Entry.serial (e : Entry) : Nat := bits e.e3.toNat 63 32
def Entry.stageidx (e : Entry) : Nat := bits e.e3.toNat 31 0
def Entry.watermark (e : Entry) : Nat := bits e.e6.toNat 23 0 * 256

/-- The entry with another STATE. -/
def Entry.setState (e : Entry) (n : Nat) : Entry :=
  { e with e0 := BitVec.ofNat 64 (e.e0.toNat % 2 ^ 62 + n * 2 ^ 62) }

/-- The entry with another SERIAL and STAGEIDX zero. -/
def Entry.setSerial (e : Entry) (n : Nat) : Entry := { e with e3 := BitVec.ofNat 64 (n % 2 ^ 32 * 2 ^ 32) }

/-- The bits of E0 that name a layout: GRAIN, HASH, FRAME and BAYSET (R68, OLDMAP). -/
def oldmapOf (e0 : W64) : W64 := e0 &&& 0x3FFFE00000FFFFFF#64

/-- Entry of a segment index. -/
def State.entry (s : State) (i : Nat) : Entry := getA s.shelf.entries i {}

/-- Replaces an entry; an entry at its reset value is not listed. -/
def State.setEntry (s : State) (i : Nat) (e : Entry) : State :=
  { s with shelf := { s.shelf with entries := setA s.shelf.entries i e {} } }

/-- A layout of a group: its first segment, its fields and the PC masks of its own entries (R69, R70). -/
structure Layout where
  s0 : Nat
  k : Nat
  grain : Nat
  hash : Bool
  frame : Nat
  bays : List Nat
  masks : List Nat
  deriving DecidableEq, Repr

/-- The capacity n × 256 KiB of a layout (R74). -/
def Layout.n (l : Layout) : Nat := sumN (l.masks.map (popcount 64))
def Layout.cap (l : Layout) : Nat := l.n * 262144

/-- The layout that word E0 of segment `i` names, with each own entry's mask given by `mask`. -/
def layoutFrom (e0 : W64) (i : Nat) (mask : Nat → Nat) : Layout :=
  let e : Entry := { e0 := e0 }
  let k := popcount 24 e.bayset
  let s0 := i - i % k
  { s0 := s0, k := k, grain := 256 * 4 ^ e.grain, hash := e.hash, frame := e.frame, bays := bitsSet 24 e.bayset,
    masks := (List.range k).map fun j => mask (s0 + j) }

/-- The layout of the group of a segment (R69). -/
def State.layout (s : State) (i : Nat) : Layout := layoutFrom (s.entry i).e0 i fun j => (s.entry j).e1.toNat

/-- The layout that held a segment before the commit that set it moving (R87). -/
def State.oldLayout (s : State) (i : Nat) : Layout := layoutFrom (s.entry i).e4 i fun j => (s.entry j).e5.toNat

/-- The p-th used PC and bay position, PC major and bay minor, from PC `64 − fuel` on (R72). -/
def findPos (masks : List Nat) : Nat → Nat → Nat × Nat
  | 0, _ => (0, 0)
  | f + 1, p =>
    let pc := 63 - f
    let js := (List.range masks.length).filter fun j => bit (masks.getD j 0) pc
    if p < js.length then (pc, js.getD p 0) else findPos masks f (p - js.length)

/-- Translation of a group offset below the capacity: bay, PC and PC-local address (R72). -/
def Layout.locate (l : Layout) (u : Nat) : Nat × Nat × Nat :=
  let g := u / l.grain
  let r := g / l.n
  let p0 := g % l.n
  let x := l.s0 * 1024 + r
  let h := bits x 5 0 ^^^ bits x 11 6 ^^^ bits x 17 12 ^^^ bits x 23 18 ^^^ bits x 27 24
  let p := if l.hash then (p0 + h) % l.n else p0
  let (pc, j) := findPos l.masks 64 p
  (l.bays.getD j 0, pc, l.frame * 262144 + r * l.grain + u % l.grain)

/-- The layout that serves a hall offset: below WATERMARK, or beyond the old capacity, the new one; else the old (R88). -/
def State.servingLayout (s : State) (off : Nat) : Layout × Nat :=
  let i := off / 2 ^ 24
  let e := s.entry i
  let l := s.layout i
  let u := off - l.s0 * 2 ^ 24
  if e.state == 3 && e.watermark ≤ u then
    let o := s.oldLayout i
    let v := off - o.s0 * 2 ^ 24
    if v < o.cap then (o, v) else (l, u)
  else (l, u)

/-- Bay, PC and PC-local address of a hall offset of a segment that is not absent (R72, R88). -/
def State.place (s : State) (off : Nat) : Nat × Nat × Nat := let r := s.servingLayout off; r.1.locate r.2

/-- The block's own number (R65). -/
def State.blockNo (s : State) : Nat := s.obj 0x2002 0

/-- A hall address split into block number and offset (R64). -/
def hallOffset (addr : Nat) : Nat := addr % 2 ^ 42
def hallBlock (addr : Nat) : Nat := addr / 2 ^ 42 % 4096

/-- What an access is, for the checks of R75. -/
structure Access75 where
  domain : Nat
  tclass : Nat
  write : Bool := false
  ledgerTile : Bool := false
  exempt : Bool := false
  deriving DecidableEq, Repr

/-- The test window is in force on a segment (R300). -/
def State.inTestWindow (s : State) (i : Nat) : Bool :=
  s.obj 0x2C60 1 == 1 &&
    (let w := s.obj 0x2C60 2; let k := (s.layout w).k; w - w % k ≤ i && i < w - w % k + k)

/-- Further erasures of the decodes of a granule: the mask at 0x2C60:08, in the test window only (R300). -/
def State.windowErasures (s : State) (g : Nat) : List Nat :=
  if s.inTestWindow (g / 2 ^ 19) then bitsSet 36 (s.obj 0x2C60 8) else []

/-- Checks 2 to 7 of R75 on a span of `len` bytes, with R51, R66, R67, R76 and R300: the answer, OK to go on. -/
def State.check75 (s : State) (addr len : Nat) (a : Access75) : BitVec 4 :=
  let off := hallOffset addr
  let i := off / 2 ^ 24
  let e := s.entry i
  if hallBlock addr != s.blockNo then stNomap
  else if s.size.segments ≤ i then stNomap
  else if e.state == 0 then stNomap
  else if !a.exempt && e.owner != 0xFF && e.owner != a.domain then stDenied
  else if !a.exempt && e.ro && a.write then stDenied
  else if !a.exempt && e.pktbuf && a.tclass != 0 then stDenied
  else if !a.exempt && a.ledgerTile && !e.ledger then stDenied
  else if !a.exempt && s.inTestWindow i then stDenied
  else
    let l := s.layout i
    if l.cap < off + len - l.s0 * 2 ^ 24 then stNomap
    else if e.state == 2 then stFenced
    else stOk

/-- A span lies within one segment (R49). -/
def oneSegment (addr len : Nat) : Bool := addr / 2 ^ 24 == (addr + len - 1) / 2 ^ 24

/-! ### Valid bits (R86, R288 to R292) -/

/-- Valid bit of a 4 KiB block of hall offset. -/
def State.validBit (s : State) (blk : Nat) : Bool := s.shelf.valid.contains blk

/-- Sets a valid bit. -/
def State.setValid (s : State) (blk : Nat) : State :=
  { s with shelf := { s.shelf with valid := insertN s.shelf.valid blk } }

/-- Clears the valid bits of blocks in a range, and drops the island caches of them (R86, R289). -/
def State.clearValid (s : State) (first count : Nat) : State :=
  let keep (b : Nat) : Bool := b < first || first + count ≤ b
  let whole (l : Nat) : Bool := first ≤ l * 512 && l * 512 + 512 ≤ first + count
  { s with shelf := { s.shelf with valid := s.shelf.valid.filter keep
                                   badLines := s.shelf.badLines.filter (fun l => !whole l)
                                   isleCache := s.shelf.isleCache.filter (fun e => keep e.2) } }

/-! ### Groups -/

/-- The segments of the group of `i`. -/
def State.groupSegs (s : State) (i : Nat) : List Nat :=
  let l := s.layout i
  (List.range l.k).map (l.s0 + ·)

/-- The first segments of the groups that satisfy a test on their first entry. -/
def State.groups (s : State) (f : Entry → Bool) : List Nat :=
  nub ((s.shelf.entries.filter fun e => e.2.state != 0 && f e.2).map fun e => e.1 - e.1 % max 1 (popcount 24 e.2.bayset))

/-- The bays of a segment's layout, both layouts of a moving one (R71, R89). -/
def State.segBays (s : State) (i : Nat) : List Nat :=
  let e := s.entry i
  let now := bitsSet 24 e.bayset
  if e.e4 ≠ 0 then nub (now ++ bitsSet 24 (Entry.bayset { e0 := e.e4 })) else now

/-- The bays of a group, under its new layout and every old one (R87, R89). -/
def State.groupBays (s : State) (i : Nat) : List Nat := nub ((s.groupSegs i).flatMap s.segBays)

/-- The next commit serial (R68), as 0x2400:09 shows it. -/
def State.nextSerial (s : State) : Nat × State := let n := (s.obj 0x2400 9 + 1) % 2 ^ 32; (n, s.setObj 0x2400 9 n)

/-- Counts a lost-data event and records its address (R88, R90, R282). -/
def State.lostData (s : State) (off : Nat) : State :=
  (s.bump 0x2400 0x0F).setObj 0x2400 0x10 (s.blockNo * 2 ^ 42 + off)

/-- Fences the groups that touch a bay, with a new SERIAL (R89). -/
def State.fenceGroups (s : State) (b : Nat) : State :=
  let segs := (s.shelf.entries.filter fun e => (e.2.state == 1 || e.2.state == 3) && (s.segBays e.1).contains b).map (·.1)
  let segs := nub (segs.flatMap s.groupSegs)
  if segs.isEmpty then s else
  let (n, s) := s.nextSerial
  segs.foldl (fun t i => t.setEntry i (((t.entry i).setState 2).setSerial n)) s

/-- The contents of a bay are lost (R356, R471): its fenced groups leave that state only for absent, its Carrel lines go, and with them its
stream of the Daybook. -/
def State.loseContents (s : State) (b : Nat) : State :=
  let segs := (s.shelf.entries.filter fun e => e.2.state == 2 && (s.segBays e.1).contains b).map (·.1)
  let segs := nub (segs.flatMap s.groupSegs)
  State.loseStream { s with shelf := { s.shelf with lost := segs.foldl insertN s.shelf.lost }
                            mem := { s.mem with carrel := s.mem.carrel.filter fun c => (s.place (64 * c.line)).1 != b } } b

/-! ### Stage validation (R81, R82) -/

/-- Frames of a bay's stack, the reserved one included (R69, R288). The stacks of a block have one capacity (R8), which stands for that of
a bay whose stack gave none. -/
def State.frames (s : State) (b : Nat) : Nat :=
  let c := (s.bay b).repair.capacity
  64 * if c = 0 then s.bays.foldl (fun m y => max m y.repair.capacity) 0 else c

/-- An entry breaks R11: a reserved bit, a reserved GRAIN, or a bit of BAYSET for a bay that the size lacks (log 43). -/
def Entry.malformed (z : Size) (e : Entry) : Bool :=
  e.e0 &&& 0x3F000000#64 ≠ 0 || 4 < e.grain || e.e2 &&& 0xFFFFFFFFF000FFE1#64 ≠ 0 || 2 ^ z.bays ≤ e.bayset

/-- The layout fields of two entries agree. -/
def sameLayout (a b : Entry) : Bool := oldmapOf a.e0 == oldmapOf b.e0 && a.e1 == b.e1

/-- The fields that R69 asks all entries of a group to share. -/
def sameGroup (a b : Entry) : Bool := a.e0 == b.e0 && a.e2 == b.e2

/-- What validation works on: the copy of the changed entries over the current list. -/
abbrev Copy := List (Nat × Entry)

/-- An entry of the copy. -/
def State.copyEntry (s : State) (c : Copy) (i : Nat) : Entry := getA c i (s.entry i)

/-- A bay of an entry's layout, or of the old layout that it kept, is fenced (R82). -/
def State.bayFencedIn (s : State) (e : Entry) : Bool :=
  (bitsSet 24 (e.bayset ||| Entry.bayset { e0 := e.e4 })).any s.fenced

/-- The state that an entry takes when its group's records carry STATE `target`, and the reason if R82 does not allow it. `changed` says that
a record changes a layout field of the group, `lost` that the contents of its group are lost (R356). A layout change is the transition to
moving whether the records carry STATE present or moving, and a group fenced during a move goes back to moving alone
(DESIGN CHOICE, log 47). -/
def State.transition (s : State) (cur : Entry) (target : Nat) (changed lost : Bool) : Nat × Nat :=
  let sound := !changed && !lost && !s.bayFencedIn cur
  match cur.state, target with
  | 3, _ => (3, 9)
  | 0, 1 => (1, 0)
  | 0, n => (n, 8)
  | _, 0 => (0, 0)
  | 1, 1 => (if changed then 3 else 1, 0)
  | 1, 2 => (2, if changed then 8 else 0)
  | 1, _ => (3, if changed then 0 else 8)
  | _, 1 => (1, if cur.e4 == 0 && sound then 0 else 8)
  | _, 3 => (3, if cur.e4 ≠ 0 && sound then 0 else 8)
  | _, n => (n, 8)

/-- Frames that an entry's group holds in its own bay position: (bay, frame) pairs under both layouts (R71). -/
def heldFrames (e : Entry) : List (Nat × Nat) :=
  let f (e0 : W64) : List (Nat × Nat) :=
    let x : Entry := { e0 := e0 }
    (bitsSet 24 x.bayset).map fun b => (b, x.frame)
  if e.state == 0 then [] else f e.e0 ++ (if e.e4 ≠ 0 then f e.e4 else [])

/-- PCs that a stage may not set (R93 reason 6): withdrawing, withdrawn, or out of service from bring-up. -/
def State.badPcs (s : State) (b : Nat) : Nat :=
  let r := (s.bay b).repair
  (r.withdrawing ||| r.withdrawn ||| r.pcsOut).toNat

/-- The reason that an entry of the copy fails with, 0 for none; `own` says that a stage record names it. DEDUCED (log 42): an
entry whose group has no entry at the multiple of k belongs to a group that is not aligned (R69, R93 reason 3). Of several reasons the
first in the order 3, 2, 4, 6, 7, 5 is given, after those of the transition (DESIGN CHOICE, log 47). -/
def State.entryReason (s : State) (c : Copy) (i : Nat) (own : Bool) : Nat :=
  let e := s.copyEntry c i
  if e.state == 0 then 0 else
  let k := popcount 24 e.bayset
  let s0 := i - i % max 1 k
  let b := (bitsSet 24 e.bayset).getD (i - s0) 0
  if !s.size.groups.contains k || (i != s0 && (s.copyEntry c s0).bayset == 0) then 3
  else if (bitsSet 24 e.bayset).any fun b => s.frames b ≤ e.frame + 1 then 2
  else if (List.range k).any fun j => !sameGroup e (s.copyEntry c (s0 + j)) then 4
  else if e.e1 == 0 || (own && e.e1.toNat &&& s.badPcs b != 0) then 6
  else if (e.pktbuf && (e.mirror || e.ledger)) || (e.mirror && e.mpartner == s.blockNo) then 7
  else
    let all := c ++ s.shelf.entries.filter fun x => !c.any fun y => y.1 == x.1
    let mine := heldFrames e
    if all.any fun x =>
      x.2.state != 0 && x.1 - x.1 % max 1 (popcount 24 x.2.bayset) != s0 && (heldFrames x.2).any mine.contains then 5
    else 0

/-- Malformed stage records: reasons 1, 2 and 15, with the record that fails first (R81, R93). -/
def stageRecordReason (z : Size) (l : List (Nat × Entry)) : Option (Nat × Nat) :=
  l.findSome? fun r =>
    let e := r.2
    if e.malformed z || e.serial != 0 || e.e4 ≠ 0 || e.e5 ≠ 0 || e.e6 ≠ 0 || e.e7 ≠ 0 then some (r.1, 1)
    else if z.segments ≤ e.stageidx then some (r.1, 2)
    else if l.any fun q => q.1 < r.1 && q.2.stageidx == e.stageidx then some (r.1, 15)
    else none

/-- The entries that a stage changes: those its records name, and the rest of each group they touch, old and new. -/
def State.stageTouched (s : State) (l : List (Nat × Entry)) : List Nat :=
  nub (l.flatMap fun r =>
    let i := r.2.stageidx
    let k := max 1 (popcount 24 r.2.bayset)
    let old := if (s.entry i).state == 0 then [] else s.groupSegs i
    [i] ++ old ++ (if r.2.state == 0 then [] else (List.range k).map (i - i % k + ·)))

/-- The records that name an entry of the group of segment `i`, as it is or as a record would have it (R82). -/
def State.recordsOf (s : State) (l : List (Nat × Entry)) (i : Nat) : List Entry :=
  (l.filter fun r =>
    let j := r.2.stageidx
    let k := max 1 (popcount 24 r.2.bayset)
    j == i || (r.2.state != 0 && i - i % k == j - j % k) || ((s.entry j).state != 0 && (s.groupSegs j).contains i)).map (·.2)

/-- What a stage makes of an entry of a group that it touches: the entry, and the reason if its transition is not allowed (R82). The group
takes one transition, and an entry without a record keeps its own commit fields. -/
def State.stagedEntry (s : State) (l : List (Nat × Entry)) (i : Nat) : Entry × Nat :=
  let cur := s.entry i
  let rs := s.recordsOf l i
  let named := rs.find? fun r => r.stageidx == i
  match named.orElse fun _ => rs.head? with
  | none => (cur, 0)
  | some lead =>
    let changed := rs.any fun r => !sameLayout (s.entry r.stageidx) r
    let (st, why) := s.transition cur lead.state changed (s.shelf.lost.contains i)
    let e := ({ named.getD cur with e3 := cur.e3 } : Entry).setState st
    if st = 0 then ({}, why)
    else if st = 3 && cur.state = 1 then ({ e with e4 := oldmapOf cur.e0, e5 := cur.e1, e6 := 0 }, why)
    else if st = 3 then ({ e with e4 := cur.e4, e5 := cur.e5, e6 := cur.e6 }, why)
    else ({ e with e4 := 0, e5 := 0, e6 := 0 }, why)

/-- Validation of the stage: the failing index and reason, or the changed entries (R81). -/
def State.validateStage (s : State) : (Nat × Nat) ⊕ Copy :=
  let l := s.shelf.stage
  match stageRecordReason s.size l with
  | some r => .inl r
  | none =>
    let touched := s.stageTouched l
    let recNo (i : Nat) : Nat := match l.find? (fun r => r.2.stageidx == i) with | some r => r.1 | none => i
    let staged := touched.map fun i => (i, s.stagedEntry l i)
    let copy : Copy := staged.foldl (fun c x => putA c x.1 x.2.1) []
    match staged.find? fun x => x.2.2 == 9 with
    | some x => .inl (recNo x.1, 9)
    | none =>
      match staged.findSome? fun x =>
          let own := l.any fun r => r.2.stageidx == x.1
          let w := s.entryReason copy x.1 own
          let w := if x.2.2 != 0 then x.2.2 else w
          if w == 0 then none else some (recNo x.1, w) with
      | some r => .inl r
      | none => .inr copy

/-- Validation of the initial load under R80: the failing index and reason, if any. -/
def State.validateLoad (s : State) : Option (Nat × Nat) :=
  let l := s.shelf.load
  l.findSome? fun r =>
    let e := r.2
    let t : State := { s with shelf := { s.shelf with entries := [] } }
    if 1 < e.state then some (r.1, 8)
    else if e.malformed s.size || e.e3 ≠ 0 || e.e4 ≠ 0 || e.e5 ≠ 0 || e.e6 ≠ 0 || e.e7 ≠ 0 then some (r.1, 1)
    else
      let w := t.entryReason l r.1 true
      if w == 0 then none else some (r.1, w)

/-! ### The commit cycle (R84, R86, R88) -/

/-- A block of hall offset lay within the capacity of the layout that held it. -/
def inOldCap (s : State) (blk : Nat) : Bool :=
  let off := blk * 4096
  let o := s.oldLayout (off / 2 ^ 24)
  off - o.s0 * 2 ^ 24 < o.cap

/-- The valid bits of one changed group at its commit cycle: `s` already holds the new entries, `was` the old state. -/
def State.commitValid (s : State) (s0 was : Nat) : State :=
  let l := s.layout s0
  let e := s.entry s0
  if was == 0 then s.clearValid (l.s0 * 4096) (l.k * 4096)
  else if was == 1 && e.state == 3 then
    let base := l.s0 * 4096
    let capB := l.cap / 4096
    let band := s.shelf.valid.filter fun b => base + capB ≤ b && b < base + l.k * 4096
    let gained := s.shelf.valid.filter fun b => base ≤ b && b < base + capB && !inOldCap s b
    let t := if band.isEmpty then s else s.lostData (l.s0 * 2 ^ 24 + l.cap)
    gained.foldl (fun u b => u.clearValid b 1) (t.clearValid (base + capB) (l.k * 4096 - capB))
  else s

/-- The entries of a commit take effect in one Registry cycle (R84), with R86 and R88. -/
def State.applyCommit (s : State) (c : Copy) : State :=
  let (n, s1) := s.nextSerial
  let s2 := c.foldl (fun t x => t.setEntry x.1 (x.2.setSerial n)) s1
  let s3 := c.foldl (fun t x => if x.2.state == 0 then t.clearValid (x.1 * 4096) 4096 else t) s2
  let gone (i : Nat) : Bool := c.any fun x => x.1 == i && x.2.state == 0
  let s3 := { s3 with shelf := { s3.shelf with lost := s3.shelf.lost.filter fun i => !gone i }
                      mem := { s3.mem with carrel := s3.mem.carrel.filter fun l => !gone (l.line / 2 ^ 18) } }
  let heads := nub ((c.filter fun x => x.2.state != 0).map fun x => x.1 - x.1 % max 1 (popcount 24 x.2.bayset))
  heads.foldl (fun t h => t.commitValid h ((s.entry h).state)) s3

/-- Ends a move: E4 to E7 clear, the group present, a new SERIAL (R87). -/
def State.endMove (s : State) (s0 : Nat) : State :=
  let (n, s) := s.nextSerial
  (s.groupSegs s0).foldl (fun t i =>
    let e := t.entry i
    t.setEntry i ((({ e with e4 := 0, e5 := 0, e6 := 0, e7 := 0 }).setState 1).setSerial n)) s

/-- The unit of a move at a group offset: the larger of the new grain and the grain of the old layout of that offset (R87). -/
def State.moveUnit (s : State) (s0 w : Nat) : Nat := max (s.layout s0).grain (s.oldLayout (s0 + w / 2 ^ 24)).grain

/-- Sets the WATERMARK of a group (R87). -/
def State.setWatermark (s : State) (s0 w : Nat) : State :=
  (s.groupSegs s0).foldl (fun t i => t.setEntry i { t.entry i with e6 := BitVec.ofNat 64 (w / 256) }) s

/-- A PC is used by a group that is present, moving or fenced, under either layout (R360). -/
def State.pcUsed (s : State) (b pc : Nat) : Bool :=
  s.shelf.entries.any fun x =>
    let f (e0 e1 : W64) : Bool :=
      let e : Entry := { e0 := e0 }
      let k := max 1 (popcount 24 e.bayset)
      (bitsSet 24 e.bayset).getD (x.1 % k) 99 == b && bit e1.toNat pc
    x.2.state != 0 && (f x.2.e0 x.2.e1 || (x.2.e4 ≠ 0 && f x.2.e4 x.2.e5))

/-- A PC of a bay becomes withdrawn: its part of the valid-bit store has moved to the bay's other PCs, and it is no longer refreshed or
trained; a run that the withdrawal overtakes is discarded (R288, R326, R360). -/
def Bay.withdraw (y : Bay) (pc : Nat) : Bay :=
  let m : BitVec 64 := BitVec.ofNat 64 (2 ^ pc)
  let t := y.train
  { y with
    repair := { y.repair with storePcs := y.repair.storePcs &&& ~~~m, withdrawing := y.repair.withdrawing &&& ~~~m
                              withdrawn := y.repair.withdrawn ||| m }
    train := { t with runs := t.runs.filter fun r => r.pc != pc, requested := t.requested.filter (· != pc)
                      slews := t.slews.filter fun x => x.pc != pc, window := t.window.filter fun w => w.1 != pc }
    sched := { y.sched with banks := y.sched.banks.filter fun k => k.pc != pc, pcs := y.sched.pcs.filter fun p => p.pc != pc } }

/-- Withdrawing PCs that no group uses become withdrawn (R360). -/
def State.settleWithdrawals (s : State) : State :=
  (List.range s.size.bays).foldl (fun t b =>
    (bitsSet 64 (t.bay b).repair.withdrawing.toNat).foldl (fun u pc =>
      if u.pcUsed b pc then u
      else u.modBay b fun y => y.withdraw pc) t) s

end Sys2Proof.Machine
end

