-- ==== Sys2Proof/Machine/Franking.lean ====
section
/-! DEFINITION. Franking: Pigeonhole and Carrel shares, meters, leases, the Sorting Frame and the gates (R249 to R268). -/

namespace Sys2Proof.Machine

/-- The consignment record of a CID that is not free. -/
def State.con (s : State) (cid : Nat) : Option Con := s.cons.find? fun c => c.cid == cid

/-- Replaces a consignment record. -/
def State.setCon (s : State) (c : Con) : State := { s with cons := s.cons.map fun x => if x.cid == c.cid then c else x }

/-- Changes a consignment record. -/
def State.modCon (s : State) (cid : Nat) (f : Con → Con) : State :=
  { s with cons := s.cons.map fun x => if x.cid == cid then f x else x }

/-- Class of a message. -/
def clsOf (a : Arrival) : Nat := a.hdr.tclass.toNat

/-- A class is enabled (R250). -/
def State.clsEnabled (s : State) (c : Nat) : Bool := bit (s.obj (0x2600 + c) 1) 0

/-! ### Shares (R266 to R268) -/

/-- Bytes of Pigeonholes that a consignment reserves in each bay of its reservation (R144). -/
def Con.phBytes (c : Con) : Nat := c.slip.window * c.slip.tileBytes

/-- Bytes of Carrel that a COLLATE consignment reserves in each home bay (R144). -/
def Con.accBytes (c : Con) : Nat := if c.slip.kind = 1 then c.slip.window * c.slip.elems * c.slip.accBytes else 0

/-- Bytes that a message takes: its flits. -/
def msgBytes (a : Arrival) : Nat := flitsOf a.data * 64

/-- Bytes that a request in flight occupies in the Pigeonholes of a bay (R266): the lines of a write that the bay has received, and
the response of every granule that a read has there. A part that still waits in its class's queue at the port-side island (R267) is not
in the bay. -/
def State.opUse (s : State) (b : Nat) (o : Op) : Nat :=
  match o.stage with
  | .bay | .staged =>
    if o.kind == .rd then
      32 * (o.parts.filter fun p => p.bay == b && p.phase != .ingress && p.phase != .behind).length
    else if o.bays.contains b && !o.await.contains b then
      32 * ((List.range o.msg.granules).filter fun i => (s.place (hallOffset o.msg.hdr.addr.toNat + 32 * i)).1 == b).length
    else 0
  | _ => 0

/-- Shared Pigeonhole bytes that a class uses in a bay (R266): messages held at Franking, requests in the bay, write-backs in its bank
queues, and the reservations of consignments. -/
def State.phUse (s : State) (b c : Nat) : Nat :=
  sumN ((s.ops.filter fun o => o.stage == .franking && !o.inPool && o.msg.port / 2 == b && clsOf o.msg == c).map
    fun o => msgBytes o.msg) +
  sumN ((s.ops.filter fun o => clsOf o.msg == c).map (s.opUse b)) +
  sumN (((s.bay b).sched.queue.filter fun q => q.write && q.cls == c).map (·.bytes)) +
  sumN ((s.cons.filter fun k => k.reserved.contains b && clsOf k.msg == c).map (·.phBytes))

/-- Carrel bytes that a class uses in a bay (R268). -/
def State.carrelUse (s : State) (b c : Nat) : Nat :=
  64 * (s.mem.carrel.filter fun l => l.cls == c && (s.place (64 * l.line)).1 == b).length +
  sumN ((s.cons.filter fun k => k.reserved.contains b && clsOf k.msg == c).map (·.accBytes))

/-- A class receives `n` more bytes of shared Pigeonholes in a bay: up to its minimum always, beyond it within its ceiling while the
unused minima of all other classes stay covered (R267). -/
def State.spaceOk (s : State) (b c n : Nat) : Bool :=
  let low (k : Nat) : Nat := s.obj (0x2600 + k) 0x0B * 1024
  let use := (List.range 64).map fun k => s.phUse b k
  let mine := use.getD c 0
  mine + n ≤ low c ||
    (mine + n ≤ s.obj (0x2600 + c) 0x0C * 1024 &&
      sumN use + n + sumN ((List.range 64).map fun k =>
        if k = c then 0 else low k - use.getD k 0) ≤ 40 * 1048576)

/-- Counts a refused request for space. -/
def State.noSpace (s : State) (b c : Nat) : State := s.count { code := 0x0024, bay := some b, cls := some c }

/-- Tile slots of COLLATE consignments in a bay (R144). -/
def State.slotsUsed (s : State) (b : Nat) : Nat :=
  sumN ((s.cons.filter fun k => k.slip.kind == 1 && k.reserved.contains b).map (·.slip.window))

/-! ### Meters (R251 to R253, R133) -/

/-- The metered size of a message: none where it is not metered (R253). -/
def meteredSize (a : Arrival) : Option Nat :=
  let op := a.hdr.opcode
  if op = 0x01 || op = 0x02 || op = 0x61 then some a.span
  else if op = 0x04 || op = 0x08 || op = 0x0C || op = 0x0D then some 64
  else none

/-- Rates in thousandths of a byte per ns, and depths in thousandths of a byte: CIR, CBS, PIR, PBS; for a consignment only
the last two (R251, R133). -/
def State.meterRates (s : State) : MeterKey → Nat × Nat × Nat × Nat
  | .cls c => (s.obj (0x2600 + c) 6, s.obj (0x2600 + c) 7 * 1024000, s.obj (0x2600 + c) 8, s.obj (0x2600 + c) 9 * 1024000)
  | .con k =>
    match s.con k with
    | some x => (0, 0, x.slip.crate * 1000, (if x.slip.cburst = 0 then x.slip.tileBytes else x.slip.cburst * 1024) * 1000)
    | none => (0, 0, 0, 0)

/-- A meter filled up to now; one that is not listed is full (R251). -/
def State.meter (s : State) (k : MeterKey) : Meter :=
  let (cir, cbs, pir, pbs) := s.meterRates k
  match s.frank.meters.find? fun m => m.key == k with
  | none => { key := k, tc := cbs, tp := pbs, at_ := s.now }
  | some m =>
    let d : Nat := s.now - m.at_
    { m with tc := min cbs (m.tc + cir * d), tp := min pbs (m.tp + pir * d), at_ := s.now }

/-- Stores a meter; a full one outside the wheel is not listed. -/
def State.putMeter (s : State) (m : Meter) : State :=
  let (_, cbs, _, pbs) := s.meterRates m.key
  let rest := s.frank.meters.filter fun x => x.key != m.key
  let full := m.tc == cbs && m.tp == pbs && m.slot.isNone
  { s with frank := { s.frank with meters := if full then rest else rest ++ [m] } }

/-- The decision on a lease of `q` thousandths of a byte (R252): its colour, green or not, and the meter after it. -/
def leaseRule (red : Bool) (q : Int) (m : Meter) : Option (Bool × Meter) :=
  let single := match m.key with | .cls _ => false | .con _ => true
  if single then (if m.tp < 0 then none else some (true, { m with tp := m.tp - q }))
  else if red then
    (if m.tp < q then none
      else if m.tc < q then some (false, { m with tp := m.tp - q })
      else some (true, { m with tc := m.tc - q, tp := m.tp - q }))
  else if m.tp < 0 then none
  else if m.tc < q then some (false, { m with tp := m.tp - q })
  else some (true, { m with tc := m.tc - q, tp := m.tp - q })

/-- A class drops its red messages (R252). -/
def State.drops (s : State) : MeterKey → Bool
  | .cls c => bit (s.obj (0x2600 + c) 1) 2
  | .con _ => false

/-- The lease of an island. -/
def State.lease (s : State) (b : Nat) (k : MeterKey) : Lease :=
  (s.frank.leases.find? fun l => l.bay == b && l.key == k).getD { bay := b, key := k, green := 0, yellow := 0, used := s.now }

/-- Stores a lease; an empty one is not listed. -/
def State.putLease (s : State) (l : Lease) : State :=
  let rest := s.frank.leases.filter fun x => !(x.bay == l.bay && x.key == l.key)
  { s with frank := { s.frank with leases := if l.green = 0 && l.yellow = 0 then rest else rest ++ [l] } }

/-- Draws a size from an island's tokens: green first, then yellow; the answer's colour is green if green tokens alone
cover it (R253). -/
def State.drawTokens (s : State) (b : Nat) (k : MeterKey) (z : Nat) : Option (Bool × State) :=
  let l := s.lease b k
  if z ≤ l.green then some (true, s.putLease { l with green := l.green - z, used := s.now })
  else if z ≤ l.green + l.yellow then
    some (false, s.putLease { l with green := 0, yellow := l.yellow - (z - l.green), used := s.now })
  else none

/-- The size of a lease for a message of size `z` (R252). -/
def State.leaseSize (s : State) (z : Nat) : Nat := max (s.obj 0x2080 1 * 1024) z

/-- Asks the meter for a lease (R252). -/
def State.askLease (s : State) (b : Nat) (k : MeterKey) (z : Nat) : Option State :=
  let q := s.leaseSize z
  match leaseRule (s.drops k) (q * 1000) (s.meter k) with
  | none => none
  | some (green, m) =>
    let l := s.lease b k
    let l := if green then { l with green := l.green + q } else { l with yellow := l.yellow + q }
    let c := match k with | .cls c => c | .con cid => ((s.con cid).map fun x => clsOf x.msg).getD 0
    some ((((s.putMeter m).putLease { l with used := s.now }).bump 0x2080 8).count { code := 0x0130, cls := some c })

/-- A meter that counts nothing: a class with PIR = 0, whose traffic is green (R251). -/
def State.unmetered (s : State) (k : MeterKey) : Bool := (s.meterRates k).2.2.1 == 0

/-- Passes a size through a meter: from tokens, else by a lease if `mayAsk`; the colour, and the state after it. -/
def State.passMeter (s : State) (b : Nat) (k : MeterKey) (z : Nat) (mayAsk : Bool) : Option (Bool × State) :=
  if s.unmetered k then some (true, s)
  else match s.drawTokens b k z with
    | some r => some r
    | none =>
      if mayAsk then
        match s.askLease b k z with
        | some t => t.drawTokens b k z
        | none => none
      else none

/-! ### The Sorting Frame (R256 to R258) -/

/-- Virtual time: the start of the slot being served (R257). Between services it is the first slot with a meter in it, or the one that the
clock is in where that is earlier. -/
def State.vt (s : State) : Nat :=
  s.frank.serving.getD ((s.frank.meters.filterMap (·.slot)).foldl min (s.now / 64 * 64))

/-- The slot of a meter with a debt in thousandths of a byte and a rate (R256). -/
def State.slotFor (s : State) (debt : Int) (rate : Nat) : Nat :=
  let vt := s.vt
  let wait := if rate = 0 then 0 else ceilDiv debt.toNat rate
  min (ceilDiv (vt + wait) 64 * 64) (vt + 262144 - 64)

/-- Puts a meter into the wheel for a refused lease of size `z` (R256). -/
def State.enterWheel (s : State) (k : MeterKey) (z : Nat) : State :=
  let m := s.meter k
  let q : Int := s.leaseSize z * 1000
  let debt := if s.drops k then q - m.tp else -m.tp
  match m.slot with
  | some _ => s.putMeter m
  | none => s.putMeter { m with slot := some (s.slotFor debt (s.meterRates k).2.2.1) }

/-- A gate is open (R260, R263). -/
def State.gateOpen (s : State) (c : Nat) : Bool := s.table.gates.getLsbD c

/-- The consignment meter that a message must pass, if its consignment has one (R133). -/
def State.conMeter (s : State) (a : Arrival) : Option Nat :=
  if a.hdr.csg || a.hdr.opcode = 0x61 then
    match s.con a.hdr.cid.toNat with
    | some c => if c.slip.crate ≠ 0 && c.state != .admitting && c.cgen == a.hdr.cgen then some c.cid else none
    | none => none
  else none

/-- The meter that a message held at Franking waits for: none while its gate is closed (R254). -/
def State.waitsFor (s : State) (o : Op) : Option MeterKey :=
  if !s.gateOpen (clsOf o.msg) then none
  else match s.conMeter o.msg with
    | some cid => if o.conPassed then some (.cls (clsOf o.msg)) else some (.con cid)
    | none => some (.cls (clsOf o.msg))

/-- A request for a lease that waits at a meter: its place in request order, the held message or the STREAM consignment that made it, and
the size it needs (R253, R258). -/
structure LeaseReq where
  place : Nat
  op : Option Nat
  cid : Nat
  size : Nat
  deriving DecidableEq, Repr

/-- The meter that the next tile of a STREAM consignment waits for, once a lease was refused (R253). -/
def State.streamFor (s : State) (c : Con) : Option MeterKey :=
  if c.streamAsk.isNone || !s.gateOpen (clsOf c.msg) then none
  else if c.streamPast = 0 && c.slip.crate ≠ 0 then some (.con c.cid)
  else if c.streamPast < 2 then some (.cls (clsOf c.msg))
  else none

/-- The requests that wait at a meter, in request order (R258). -/
def State.leaseReqs (s : State) (k : MeterKey) : List LeaseReq :=
  sortBy (·.place)
    (((s.ops.filter fun o => o.stage == .franking && s.waitsFor o == some k).map fun o =>
        { place := o.id, op := some o.id, cid := 0, size := (meteredSize o.msg).getD 64 }) ++
      (s.cons.filter fun c => s.streamFor c == some k).map fun c =>
        { place := c.streamAsk.getD 0, op := none, cid := c.cid, size := c.slip.tileBytes })

/-- A request for a lease made earlier than place `id` waits at a meter. -/
def State.leaseAhead (s : State) (k : MeterKey) (id : Nat) : Bool := (s.leaseReqs k).any fun r => r.place < id

/-- A held message must let an earlier held one of its class go first (R254). -/
def State.heldBehind (s : State) (c id : Nat) : Bool :=
  (s.ops.any fun o => o.id == id && o.stage == .franking) &&
    s.ops.any fun o => o.id < id && o.stage == .franking && clsOf o.msg == c

/-- What Franking decides on a message. -/
inductive Franked where
  | pass (green : Bool) (s : State)
  | hold (conPassed : Bool) (s : State)
  | retry (s : State)
  deriving DecidableEq, Repr

/-- Counts the bytes of a message released by Franking (R274). -/
def State.countFranked (s : State) (c : Nat) (green : Bool) (z : Nat) : State :=
  s.bump (0x2600 + c) (if green then 0x10 else 0x11) z

/-- The class meter, for a message that has passed its consignment meter or needs none. Held messages of a class go in arrival
order (R254). -/
def State.frankClass (s : State) (a : Arrival) (id z : Nat) : Franked :=
  let c := clsOf a
  let op := a.hdr.opcode
  let dropped := s.drops (.cls c) && (op = 0x01 || op = 0x02 || op = 0x04)
  if s.heldBehind c id then .hold true s
  else match s.passMeter (a.port / 2) (.cls c) z (dropped || !s.leaseAhead (.cls c) id) with
  | some (green, t) => .pass green (t.countFranked c green z)
  | none =>
    if dropped then .retry (s.bump (0x2600 + c) 0x12)
    else .hold true (s.enterWheel (.cls c) z)

/-- Franking of a message (R253, R254): its consignment meter first, then its class meter. `id` is its place in arrival
order, `conPassed` that it has passed its consignment meter before. -/
def State.franks (s : State) (a : Arrival) (id : Nat) (conPassed : Bool) : Franked :=
  match meteredSize a with
  | none => .pass true s
  | some z =>
    if !s.gateOpen (clsOf a) then .hold conPassed s
    else match s.conMeter a with
      | none => s.frankClass a id z
      | some cid =>
        if conPassed then s.frankClass a id z
        else match s.passMeter (a.port / 2) (.con cid) z (!s.leaseAhead (.con cid) id) with
          | some (_, t) => t.frankClass a id z
          | none => .hold false (s.enterWheel (.con cid) z)

/-- The lease requests of the next tile of a STREAM consignment: its consignment meter, then its class meter, each passed once; a
refusal gives it its place in request order and puts the meter into the wheel (R133, R253, R256). -/
def State.leaseStream (s : State) (cid : Nat) : State :=
  match s.con cid with
  | none => s
  | some c =>
    let b := c.msg.port / 2
    let z := c.slip.tileBytes
    let at_ := c.streamAsk.getD s.nextId
    let wait (t : State) (k : MeterKey) : State :=
      let t := if c.streamAsk.isSome then t
        else { t.modCon cid fun c => { c with streamAsk := some at_ } with nextId := t.nextId + 1 }
      t.enterWheel k z
    let toClass (t : State) : State :=
      match t.passMeter b (.cls (clsOf c.msg)) z (!t.leaseAhead (.cls (clsOf c.msg)) at_) with
      | none => wait t (.cls (clsOf c.msg))
      | some (green, t) =>
        (t.modCon cid fun c => { c with streamPast := 2, streamGreen := green }).countFranked (clsOf c.msg) green z
    if c.streamPast = 2 then s
    else if c.streamPast = 1 || c.slip.crate = 0 then toClass s
    else match s.passMeter b (.con cid) z (!s.leaseAhead (.con cid) at_) with
      | none => wait s (.con cid)
      | some (_, t) => toClass (t.modCon cid fun c => { c with streamPast := 1 })

/-- The place of a meter among those of a slot: the real-time class, classes by descending priority and ascending label,
then consignments (R258). -/
def State.serveOrder (s : State) : MeterKey → Nat
  | .cls c => if c = 0 then 0 else 1 + (61 - s.obj (0x2600 + c) 2) * 64 + c
  | .con k => 10000 + k

/-- The meters of the slot that is served next, in the order of R258, and its start. -/
def State.dueMeters (s : State) : Option (Nat × List MeterKey) :=
  match s.frank.meters.filterMap (·.slot) with
  | [] => none
  | t :: ts =>
    let first := ts.foldl min t
    let ks := (s.frank.meters.filter fun m => m.slot == some first).map (·.key)
    some (first, sortBy s.serveOrder ks)

/-- Takes a meter out of the wheel to serve it. -/
def State.leaveWheel (s : State) (k : MeterKey) : State := s.putMeter { s.meter k with slot := none }

/-- Returns the unused tokens of a lease to its meter, each capped at its burst size (R253). -/
def State.returnLease (s : State) (l : Lease) : State :=
  let (_, cbs, _, pbs) := s.meterRates l.key
  let m := s.meter l.key
  let s := { s with frank := { s.frank with leases := s.frank.leases.erase l } }
  s.putMeter { m with tc := min cbs (m.tc + l.green * 1000), tp := min pbs (m.tp + (l.green + l.yellow) * 1000) }

/-- A write of a rate or burst size (R259): levels at the old rate up to now, capped, the debt carried or forgiven. -/
def State.changeRate (s : State) (c sub v : Nat) : State :=
  let k := MeterKey.cls c
  let m := s.meter k
  let forgive := bit (s.obj (0x2600 + c) 1) 3
  let s := s.setObj (0x2600 + c) sub v
  let (_, cbs, _, pbs) := s.meterRates k
  let tp := if m.tp < 0 then (if forgive then 0 else max m.tp (-(pbs : Int))) else min m.tp pbs
  let t := s.putMeter { m with tc := min m.tc cbs, tp := tp, slot := none }
  match m.slot, t.leaseReqs k with
  | some _, r :: _ => t.enterWheel k r.size
  | _, _ => t

/-- LEASE_RETURN: the leases of a class, or of its consignments, that an island has left unused for 1 µs return (R253). -/
def execLeaseReturn (bay cls : Nat) (s : State) : Out :=
  let mine (l : Lease) : Bool := l.bay == bay && (match l.key with
    | .cls c => c == cls
    | .con k => ((s.con k).map fun x => clsOf x.msg) == some cls)
  match s.frank.leases.filter mine with
  | [] => .next s
  | l :: ls =>
    let t := s.reach ((l :: ls).foldl (fun d x => min d (x.used + 1000)) (l.used + 1000))
    .next (((l :: ls).filter fun x => x.used + 1000 ≤ t.now).foldl (fun u x => u.returnLease x) t)

end Sys2Proof.Machine
end

