-- ==== Sys2Proof/Machine/Guarantee.lean ====
section
/-! DEFINITION. Deliverable bandwidth, guarantees in force, guarantee buckets, measured latency and the effective priority of a
request in a bay (R246, R264, R265, R270 to R272, R472). Bandwidths are in MB/s, which makes R246 exact. -/

namespace Sys2Proof.Machine

/-- Pin rate at an operating point, in hundredths of OP0 (R240). -/
def pinRate (op : Nat) : Nat := if op = 0 then 100 else if op = 1 then 80 else 64

/-- The percentage r of R246: by thermal state as 0x2200+n:10 codes it. -/
def refreshShare (thermal : Nat) : Nat := if thermal ≤ 1 then 3 else if thermal = 2 then 6 else 12

/-- The issue-rate limit h of R351, in quarters, by ladder level as 0x2200+n:11 codes it. -/
def issueQuarters (level : Nat) : Nat := if level ≤ 1 then 4 else if level = 2 then 2 else 1

/-- The limit in force on a bay's Carrel, in thousandths of its full rate: the lower of the ladder's and the governor's (R32, R353). The
governor leaves the real-time class alone (R29). -/
def State.carrelLimit (s : State) (b : Nat) (realTime : Bool) : Nat :=
  let h := 250 * issueQuarters (s.bay b).therm.level
  if realTime then h else min h (s.bay b).power.carrelCap

/-- The limit in force on the issue of a bay's collation lanes (R29, R32, R353). -/
def State.collLimit (s : State) (b : Nat) : Nat := min (250 * issueQuarters (s.bay b).therm.level) (s.bay b).power.collCap

/-- The bay's Carrel may do one more access in this 10 µs window: full rate is 8 TB/s, 1,250,000 lines a window (R15, R29, R353). -/
def State.carrelMay (s : State) (b : Nat) (realTime : Bool) : Bool :=
  (s.bay b).power.carrelUsed < 1250 * s.carrelLimit b realTime

/-- Counts the Carrel lines that a bay has moved in the window. -/
def State.useCarrel (s : State) (b : Nat) (n : Nat := 1) : State :=
  s.modBay b fun y => { y with power := { y.power with carrelUsed := y.power.carrelUsed + n } }

/-- The bay's lanes may take more work in this window: four lanes at 1.5 GHz have 60,000 lane cycles a window (R28, R29, R353). -/
def State.collMay (s : State) (b : Nat) : Bool := (s.bay b).power.collUsed < 60 * s.collLimit b

/-- Counts the lane cycles that a bay has used in the window. -/
def State.useLanes (s : State) (b n : Nat) : State :=
  s.modBay b fun y => { y with power := { y.power with collUsed := y.power.collUsed + n } }

/-- D of a bay in MB/s (R246); a bay that is fenced, tripped or in cold stop has none (R472). -/
def State.deliver (s : State) (b : Nat) : Nat :=
  let y := s.bay b
  if y.repair.fence != 0 || y.therm.thermal = 0 || 4 < y.therm.thermal then 0
  else pinRate y.sched.point * (63 - popcount 64 y.repair.withdrawn.toNat) *
    (100 - refreshShare y.therm.thermal - s.obj 0x2400 0x0C) * issueQuarters y.therm.level

/-- The D that guarantees are compared with: 0.92 × D in determinism mode (R390). -/
def State.guarD (s : State) (b : Nat) : Nat := if s.determinism then s.deliver b * 92 / 100 else s.deliver b

/-- MB/s as GB/s, to the nearest. -/
def toGB (mb : Nat) : Nat := (mb + 500) / 1000

/-- The guarantee that counts for a class, in GB/s: none while it is not enabled (R270). -/
def State.guar (s : State) (c : Nat) : Nat := if s.clsEnabled c then s.obj (0x2600 + c) 0x0A else 0

/-- Sum of configured guarantees (R270). -/
def State.guarSum (s : State) : Nat := sumN ((List.range 64).map s.guar)

/-- Lowest D of any bay that is not fenced; none where every bay is. -/
def State.lowestD (s : State) : Option Nat :=
  match ((List.range s.size.bays).filter fun b => !s.fenced b).map s.deliver with
  | [] => none
  | d :: ds => some (ds.foldl min d)

/-- The guarantee that R271 gives a class in a bay, in MB/s. -/
def State.guarRule (s : State) (b c : Nat) : Nat :=
  let d := s.guarD b
  let g := s.guar c * 1000
  if s.guarSum * 1000 ≤ d then g
  else if c = 0 then min g d
  else s.guar c * (d - s.guar 0 * 1000) / (s.guarSum - s.guar 0)

/-- f of a bay in units of 0.01%, rounded down (R271). A bay with no other guaranteed class shows 10,000. -/
def State.guarF (s : State) (b : Nat) : Nat :=
  let d := s.guarD b
  let others := s.guarSum - s.guar 0
  if s.fenced b || s.guarSum * 1000 ≤ d || others = 0 then 10000 else min 10000 (10 * (d - s.guar 0 * 1000) / others)

/-- The guarantee in force of a class in a bay, in MB/s: the configured one unless a lower one is listed (R271). -/
def State.inForce (s : State) (b c : Nat) : Nat :=
  match s.frank.gforce.find? fun e => e.1 == b * 64 + c with
  | some e => e.2
  | none => s.guar c * 1000

/-- The level of a guarantee bucket in thousandths of a byte: full where it is not listed (R265). -/
def State.gLevel (s : State) (b c : Nat) : Nat :=
  let k := (b * 64 + c) * 2
  let rate := s.inForce b c
  match s.frank.gbucket.find? fun e => e.1 == k with
  | some e => min (2000 * rate) (e.2 + rate * (s.now - getA s.frank.gbucket (k + 1) 0))
  | none => 2000 * rate

/-- Sets the level of a guarantee bucket as of now. -/
def State.setGLevel (s : State) (b c v : Nat) : State :=
  let k := (b * 64 + c) * 2
  { s with frank := { s.frank with gbucket := putA (putA s.frank.gbucket k v) (k + 1) s.now } }

/-- A change that may alter the guarantee of a class: its buckets hold the level that they had at the old rate (R265). -/
def State.keepLevels (s : State) (c : Nat) (f : State → State) : State :=
  let old := (List.range s.size.bays).map fun b => (b, s.gLevel b c)
  let t := f s
  if t.guar c = s.guar c then t else old.foldl (fun u e => u.setGLevel e.1 c e.2) t

/-- The guarantees in force that lie below the configured ones, bay major (R271); R472 leaves fenced bays out. -/
def State.guarShort (s : State) : Dict :=
  (List.range s.size.bays).flatMap fun b =>
    if s.fenced b || s.guarSum * 1000 ≤ s.guarD b then []
    else (List.range 64).filterMap fun c =>
      if s.guarRule b c < s.guar c * 1000 then some (b * 64 + c, s.guarRule b c) else none

/-- Recomputes the guarantees in force, in the cycle in which a D or a guarantee changes, with the events of R272. Buckets keep
their level across the change. -/
def State.reguarantee (s : State) : State :=
  if s.guarSum = 0 && s.frank.gforce.isEmpty then s
  else
    let old := s.frank.gforce
    let new := s.guarShort
    let keys := nub ((old ++ new).map (·.1))
    let levels := keys.map fun k => (k, s.gLevel (k / 64) (k % 64))
    let s := { s with frank := { s.frank with gforce := new } }
    let s := levels.foldl (fun t e => t.setGLevel (e.1 / 64) (e.1 % 64) e.2) s
    keys.foldl (fun t k =>
      let b := k / 64
      let was := old.any fun e => e.1 == k
      let is_ := new.any fun e => e.1 == k
      if !was && is_ then (t.bump 0x2080 9).event 0x0001 b (k % 64) (toGB (t.inForce b (k % 64)))
      else if was && !is_ && !t.fenced b then (t.bump 0x2080 9).event 0x0002 b (k % 64) (toGB (t.inForce b (k % 64)))
      else t) s

/-- Serves green bytes of a guaranteed class from a bay: its bucket drains, not below empty (R265). -/
def State.drainGuar (s : State) (b c bytes : Nat) : State :=
  if s.guar c = 0 then s else s.setGLevel b c (s.gLevel b c - bytes * 1000)

/-! ### Measured latency and effective priority (R264) -/

/-- Measured latency of a class in a bay, in ns: zero after 100 µs without a completion. -/
def State.latency (s : State) (b c : Nat) : Nat :=
  let l := getA s.frank.latSum (b * 64 + c) []
  if getA s.frank.lat (b * 64 + c) 0 + 100000 < s.now || l.isEmpty then 0 else sumN l / l.length

/-- Records a completed request: its latency in ns. -/
def State.noteLatency (s : State) (b c ns : Nat) : State :=
  let k := b * 64 + c
  { s with frank := { s.frank with lat := putA s.frank.lat k s.now
                                   latSum := putA s.frank.latSum k ((ns :: getA s.frank.latSum k []).take 64) } }

/-- The static priority of a class: 63 for the real-time class (R274). -/
def State.staticPrio (s : State) (c : Nat) : Nat := if c = 0 then 63 else s.obj (0x2600 + c) 2

/-- The static priority of a request in a segment: raised to that of CFLOOR where R78 applies. -/
def State.flooredPrio (s : State) (c seg : Nat) : Nat :=
  let e := s.entry seg
  if e.cfen then max (s.staticPrio c) (s.staticPrio e.cfloor) else s.staticPrio c

/-- The effective priority of a request of class `c` in bay `b` with static priority `st` (R264). -/
def State.effPrio (s : State) (b c st : Nat) (green : Bool) : Nat :=
  if c = 0 then 63
  else
    let target := s.obj (0x2600 + c) 3
    let start := target * s.obj (0x2600 + c) 4 / 100
    let rcap := s.obj (0x2600 + c) 5
    let lat := s.latency b c
    let x := min (lat - start) (target - start)
    let p := if target = 0 || lat ≤ start then st
      else if st ≤ rcap then st + (rcap - st) * x / (target - start)
      else st - (st - rcap) * x / (target - start)
    if green && s.guar c ≠ 0 && 0 < s.gLevel b c then 62 else p

end Sys2Proof.Machine
end

