-- ==== Sys2Proof/Machine/Codes.lean ====
section
/-! DEFINITION. The Reed-Solomon codes of the stack and of the Carrel (R277, R279 to R282, R286). -/

namespace Sys2Proof.Machine

/-- Multiplication in GF(2^8) with the field polynomial 0x11D (R279), over `n` bits of the first factor. -/
def gfMulAux : Nat → Nat → Nat → Nat
  | 0, _, _ => 0
  | n + 1, a, b =>
    let b2 := if 128 ≤ b then (b * 2) ^^^ 0x11D else b * 2
    (if a % 2 = 1 then b else 0) ^^^ gfMulAux n (a / 2) b2

/-- The field product. -/
def gfMul (a b : Nat) : Nat := gfMulAux 8 a b

/-- A power in the field. -/
def gfPow (a : Nat) : Nat → Nat
  | 0 => 1
  | n + 1 => gfMul a (gfPow a n)

/-- α^n, with α = 2 (R279). -/
def gfExp (n : Nat) : Nat := gfPow 2 (n % 255)

/-- The inverse: a^254. -/
def gfInv (a : Nat) : Nat := gfPow a 254

/-- A polynomial, least degree first, at a point. -/
def polyAt (p : List Nat) (x : Nat) : Nat := p.foldr (fun c v => c ^^^ gfMul v x) 0

/-- The sum of polynomials. -/
def polyAdd : List Nat → List Nat → List Nat
  | [], q => q
  | p, [] => p
  | a :: p, b :: q => (a ^^^ b) :: polyAdd p q

/-- The product of polynomials. -/
def polyMul : List Nat → List Nat → List Nat
  | [], _ => []
  | a :: p, q => polyAdd (q.map (gfMul a)) (0 :: polyMul p q)

/-- The generator with roots α^0 to α^(n-1). -/
def rsGen (n : Nat) : List Nat := (List.range n).foldl (fun g i => polyMul g [gfExp i, 1]) [1]

/-- The remainder of a polynomial, highest degree first, by a monic divisor, highest degree first. -/
def polyRem (g : List Nat) : Nat → List Nat → List Nat
  | 0, u => u
  | _ + 1, [] => []
  | n + 1, c :: u => polyRem g n (List.zipWith (· ^^^ ·) u ((g.drop 1).map (gfMul c) ++ List.replicate u.length 0))

/-- The check symbols of data symbols followed by four virtual tag symbols, for `n` roots (R279, R286). -/
def rsChecks (n : Nat) (data : List Nat) (tag : Nat) : List Nat :=
  let virt := (toBytes 4 tag).map (·.toNat)
  let u := (List.replicate n 0 ++ data ++ virt).reverse
  (polyRem (rsGen n).reverse (data.length + 4) u).reverse

/-- What a decoder reports (R281): whether it corrected, the corrected stored symbols, the error positions that were not
erasures, every position it changed, the erasures it used, and whether an error lay in a virtual position. -/
structure RsResult where
  ok : Bool
  word : List Nat
  errs : List Nat
  fixes : List Nat := []
  eras : Nat
  virt : Bool := false
  deriving DecidableEq, Repr

/-- One step of the locator recurrence with erasures: locator, auxiliary polynomial and length after syndrome `r`. -/
def rsStep (f : Nat) (syn : List Nat) (st : List Nat × List Nat × Nat) (r : Nat) : List Nat × List Nat × Nat :=
  let (lam, b, len) := st
  let d := (List.range r).foldl (fun v j => v ^^^ gfMul (lam.getD j 0) (syn.getD (r - 1 - j) 0)) 0
  let xb := 0 :: b
  if d = 0 then (lam, xb, len)
  else
    let t := polyAdd lam (xb.map (gfMul d))
    if 2 * len ≤ r - 1 + f then (t, lam.map (gfMul (gfInv d)), r - len + f) else (t, xb, len)

/-- The decoder of R281 and R286: `n` check symbols, stored symbols checks first, the expected tag, the erased positions. -/
def rsDecode (n : Nat) (word : List Nat) (tag : Nat) (erased : List Nat) : RsResult :=
  let full := word ++ (toBytes 4 tag).map (·.toNat)
  let syn := (List.range n).map fun j => polyAt full (gfExp j)
  let f := erased.length
  if syn.all (· == 0) then { ok := true, word := word, errs := [], eras := f }
  else
    let gam := erased.foldl (fun g i => polyMul g [1, gfExp i]) [1]
    let st := ((List.range n).map (· + 1)).foldl (fun st r => if r ≤ f then st else rsStep f syn st r) (gam, gam, f)
    let lam := st.1
    let omega := (polyMul syn lam).take n
    let deriv := (lam.drop 1).mapIdx fun i c => if i % 2 = 0 then c else 0
    let roots := (List.range full.length).filter fun i => polyAt lam (gfExp (255 - i % 255)) == 0
    let fixed := roots.foldl (fun w i =>
      let xi := gfExp (255 - i % 255)
      let den := polyAt deriv xi
      w.set i (w.getD i 0 ^^^ gfMul (gfExp i) (gfMul (polyAt omega xi) (gfInv den)))) full
    let moved := (List.range full.length).filter fun i => fixed.getD i 0 != full.getD i 0
    let errs := moved.filter fun i => !erased.contains i
    let clean := ((List.range n).all fun j => polyAt fixed (gfExp j) == 0) && 2 * errs.length + f ≤ n
    let virt := clean && errs.any (word.length ≤ ·)
    if clean && !virt then { ok := true, word := fixed.take word.length, errs := errs, fixes := moved, eras := f }
    else { ok := false, word := word, errs := errs, eras := f, virt := virt }

/-- The marking tag: A XOR 0x8000_0000 (R282). -/
def markTag (tag : Nat) : Nat := tag ^^^ 0x80000000

/-- The check symbols of a granule as one number, c0 in the low byte. -/
def granuleChecks (data : List Byte) (tag : Nat) : BitVec 32 :=
  BitVec.ofNat 32 (ofBytes ((rsChecks 4 (data.map (·.toNat)) tag).map (BitVec.ofNat 8)))

/-- XORs symbol errors onto stored symbols (log 8). -/
def xorSyms (word : List Nat) (err : List (Nat × Byte)) : List Nat :=
  err.foldl (fun w e => w.set e.1 (w.getD e.1 0 ^^^ e.2.toNat)) word

/-- Decodes a granule from its 32 bytes and checks, with errors met on the way (R281). -/
def decodeGranule (data : List Byte) (chk : BitVec 32) (tag : Nat) (erased : List Nat) (err : List (Nat × Byte)) : RsResult :=
  rsDecode 4 (xorSyms ((toBytes 4 chk.toNat ++ data).map (·.toNat)) err) tag erased

end Sys2Proof.Machine
end

