-- ==== Sys2Proof/Machine/Memory.lean ====
section
/-! DEFINITION. Stored data of the stacks and the Carrels, and the evidence that decodes leave (R77, R235 to R237,
R277 to R299). Data are kept by hall offset, so that a move changes no value (R120). -/

namespace Sys2Proof.Machine

/-- What a stack byte that nothing has written reads as (log 5). -/
def emptyByte : Byte := 0

/-- One byte of the stacks. -/
def stackByte (m : Mem) (a : Nat) : Byte := getA m.stack a emptyByte

/-- Writes one byte of the stacks; the canonical form is kept. -/
def putByte (l : List Host.Cell) (a : Nat) (b : Byte) : List Host.Cell := setA l a b emptyByte

/-- Writes bytes from an address on. -/
def putBytes : List Host.Cell → Nat → List Byte → List Host.Cell
  | l, _, [] => l
  | l, a, b :: bs => putBytes (putByte l a b) (a + 1) bs

/-- The canonical form of the stack's cells: addresses strictly rising, none at the value of an unlisted byte. -/
def Mem.wf (m : Mem) : Bool := risingFrom 0 m.stack && m.stack.all fun c => c.2 != emptyByte

/-- The 32 bytes of a granule in the stack. -/
def stackGranule (m : Mem) (g : Nat) : List Byte := (List.range 32).map fun i => stackByte m (32 * g + i)

/-- The Carrel line of a hall line number. -/
def carrelLine (m : Mem) (l : Nat) : Option CLine := m.carrel.find? fun c => c.line == l

/-- A granule is valid in the Carrel: a hit (R235). -/
def carrelHit (m : Mem) (g : Nat) : Bool :=
  match carrelLine m (g / 2) with
  | some c => c.gvalid.getLsbD (g % 2)
  | none => false

/-- The half of a line that granule `g` fills. -/
def lineHalf (c : CLine) (g : Nat) : List Byte := (c.data.drop (32 * (g % 2))).take 32

/-- The value of a granule: from the Carrel on a hit, else from the stack; the flag says that it is marked. -/
def granule (m : Mem) (g : Nat) : List Byte × Bool :=
  match carrelLine m (g / 2) with
  | some c => if c.gvalid.getLsbD (g % 2) then (lineHalf c g, false) else (stackGranule m g, m.marked.contains g)
  | none => (stackGranule m g, m.marked.contains g)

/-- The value of one byte of hall offset, whichever tier holds it. -/
def memByte (m : Mem) (a : Nat) : Byte := (granule m (a / 32)).1.getD (a % 32) 0

/-- Replaces or inserts a Carrel line, lines rising. -/
def putLine : List CLine → CLine → List CLine
  | [], c => [c]
  | d :: l, c => if c.line < d.line then c :: d :: l else if c.line = d.line then c :: l else d :: putLine l c

/-- Fills half of a line: an absent line is allocated with zeros in its other half. The label is that of the last writer, or of the reader that
allocated the line (R235, R268). -/
def fillHalf (m : Mem) (g : Nat) (data : List Byte) (dirty : Bool) (cls now : Nat) (pkt : Bool) : Mem :=
  let c : CLine := (carrelLine m (g / 2)).getD { line := g / 2, gvalid := 0, dirty := 0, data := zeros 64 }
  let bitG : BitVec 2 := if g % 2 = 0 then 1 else 2
  let d := if g % 2 = 0 then padTo 32 data ++ c.data.drop 32 else c.data.take 32 ++ padTo 32 data
  let dm := if dirty then c.dirty ||| bitG else c.dirty
  let label := if dirty || c.gvalid = 0 then cls else c.cls
  let c2 : CLine := { c with gvalid := c.gvalid ||| bitG, dirty := dm, data := d, cls := label, pkt := pkt, used := now }
  { m with carrel := putLine m.carrel c2 }

/-- A performed write of a granule: every write allocates, and the line is dirty (R235). -/
def writeGranule (m : Mem) (g : Nat) (data : List Byte) (cls now : Nat) (pkt : Bool) : Mem :=
  fillHalf m g data true cls now pkt

/-- The stack takes a granule: a good codeword replaces whatever stood there (R237, R285). -/
def stackWrite (m : Mem) (g : Nat) (data : List Byte) : Mem :=
  { m with stack := putBytes m.stack (32 * g) data, chk := delA m.chk g, marked := m.marked.filter (· != g) }

/-- Writes back the dirty granules of a line (R237). -/
def writeBack (m : Mem) (l : Nat) : Mem :=
  match carrelLine m l with
  | none => m
  | some c =>
    let put (m : Mem) (g : Nat) : Mem := if c.dirty.getLsbD (g % 2) then stackWrite m g (lineHalf c g) else m
    let m := put (put m (2 * l)) (2 * l + 1)
    { m with carrel := putLine m.carrel { c with dirty := 0 } }

/-- Drops a Carrel line. -/
def dropLine (m : Mem) (l : Nat) : Mem := { m with carrel := m.carrel.filter fun c => c.line != l }

/-- Stores the mark of a granule: data zero under another tag (R282). -/
def markStored (m : Mem) (g : Nat) : Mem :=
  { m with stack := putBytes m.stack (32 * g) (zeros 32), chk := delA m.chk g, marked := insertN m.marked g }

/-- The state with its memory changed. -/
def State.modMem (s : State) (f : Mem → Mem) : State := { s with mem := f s.mem }

/-- Bay, PC and PC-local granule address of a hall granule (R72, R280). -/
def State.gplace (s : State) (g : Nat) : Nat × Nat × Nat :=
  let (b, pc, loc) := s.place (32 * g)
  (b, pc, loc / 32 % 2 ^ 26)

/-- A bank queue entry of the real-time class; a write-back of the cleaner stands below every class (R218, R226, R237). -/
def BankReq.realTime (q : BankReq) : Bool := q.cls == 0 && !q.cleaner

/-- A PC of a bay is in a real-time burst (R226). -/
def Sched.startBurst (y : Sched) (pc : Nat) : Sched :=
  let p := (y.pcs.find? fun p => p.pc == pc).getD { pc := pc }
  { y with pcs := insertBy (fun x => x.pc) { p with burst := true, burstOff := none } (y.pcs.filter fun x => x.pc != pc) }

/-- A Carrel line must leave (R237): a clean one is dropped, a dirty one is marked, and its write-backs that are queued already are
scheduled no longer below the others. -/
def State.evictLine (s : State) (l : Nat) : State :=
  match carrelLine s.mem l with
  | none => s
  | some c =>
    if c.dirty = 0 then s.modMem fun m => dropLine m l
    else
      let (b, pc, _) := s.gplace (2 * l)
      let s := s.modMem fun m => { m with carrel := putLine m.carrel { c with evict := true } }
      let raise (q : BankReq) : BankReq := if q.write && q.op == l then { q with cleaner := false } else q
      if !(s.bay b).sched.queue.any fun q => q.write && q.op == l && q.cleaner then s
      else s.modBay b fun y =>
        let z := { y.sched with queue := y.sched.queue.map raise }
        { y with sched := if c.cls = 0 then z.startBurst pc else z }

/-- An access of the Carrel makes a line the most recently used (R235, R237). -/
def touchLine (m : Mem) (l now : Nat) : Mem :=
  { m with carrel := m.carrel.map fun c => if c.line == l then { c with used := now } else c }

/-- The address tag (R280). -/
def addrTag (pc gaddr : Nat) : Nat := pc * 2 ^ 26 + gaddr

/-- The stored word of a granule in the stack: data and check symbols under its tag (R279, R282). -/
def State.storedWord (s : State) (g : Nat) : List Byte × BitVec 32 :=
  let (_, pc, ga) := s.gplace g
  let d := stackGranule s.mem g
  let t := addrTag pc ga
  let own := granuleChecks d (if s.mem.marked.contains g then markTag t else t)
  (d, getA s.mem.chk g own)

/-! ### Lanes of a PC (R281, R296) -/

/-- Lane of a symbol position: check lane i is lane 32 + i (R279, R296). -/
def laneOf (pos : Nat) : Nat := if pos < 4 then 32 + pos else pos - 4

/-- Symbol position of a lane. -/
def posOf (lane : Nat) : Nat := if lane < 32 then lane + 4 else lane - 32

/-- Lane state of a PC. -/
def State.lanes (s : State) (b pc : Nat) : PcLanes := ((s.bay b).train.lanes.find? fun l => l.pc == pc).getD { pc := pc }

/-- Replaces the lane state of a PC. -/
def State.setLanes (s : State) (b : Nat) (x : PcLanes) : State :=
  s.modBay b fun y =>
    let l := y.train.lanes.filter (fun z => z.pc != x.pc)
    { y with train := { y.train with lanes := x :: l } }

/-- A PC is proposed for withdrawal, once: 0 lanes, 1 uncorrectable events, 2 retraining (R297, R439). -/
def State.propose (s : State) (b pc reason : Nat) : State :=
  let x := s.lanes b pc
  if x.proposed then s else ((s.setLanes b { x with proposed := true }).bump 0x2C00 0x0C).event 0x0020 b pc reason

/-- A lane fails: onto the erasure list, or a proposal where the list is full (R296, R297). -/
def State.laneFails (s : State) (b pc lane : Nat) : State :=
  let x := s.lanes b pc
  if x.erased.contains lane then s
  else if x.erased.length < 2 then s.setLanes b { x with erased := insertN x.erased lane }
  else s.propose b pc 0

/-- An uncorrectable event of a PC; the limit of R297 proposes it. -/
def State.uncorrEvent (s : State) (b pc : Nat) : State :=
  let x := s.lanes b pc
  let l := s.now :: x.uncorr.filter fun t => s.now < t + 86400000000000
  let s := s.setLanes b { x with uncorr := l }
  if s.obj 0x2C00 5 ≤ l.length then s.propose b pc 1 else s

/-! ### Evidence (R299, R295) -/

/-- Band of a bay for the bins: 0, 1 or 2 for B0, B1 and B2 and above (R299, R346). -/
def Thermal.band (t : Thermal) : Nat := if t.thermal ≤ 1 then 0 else if t.thermal = 2 then 1 else 2

/-- Controller cycles in 100 µs at an operating point (R224, R240). -/
def cyclesPer100us (op : Nat) : Nat := if op = 0 then 125000 else if op = 1 then 100000 else 80000

/-- Load class of a PC: the fraction of its slots that carried payload over the preceding 100 µs (R299). -/
def State.loadClass (s : State) (b pc : Nat) : Nat :=
  let y := (s.bay b).sched
  match y.pcs.find? fun p => p.pc == pc with
  | none => 0
  | some p =>
    let used := sumN ((p.data.filter fun e => s.now ≤ e.1 * 1000 + 100000).map (·.2))
    min 3 (used * 4 / cyclesPer100us y.point)

/-- Adds to word `w` of the bay's bin for the PC's conditions (R299, R303). -/
def State.bin (s : State) (b pc w : Nat) : State :=
  let i := (s.bay b).therm.band * 4 + s.loadClass b pc
  s.modBay b fun y =>
    let row := y.evid.bins.getD i []
    { y with evid := { y.evid with bins := y.evid.bins.set i (row.set w (row.getD w 0 + 1)) } }

/-- Enters or counts a hard fault (R295). -/
def State.hardFault (s : State) (b pc ga sym : Nat) (fresh : Bool) : State :=
  let same (h : HardFault) : Bool := h.bay == b && h.pc == pc && h.gaddr == ga && h.sym == sym
  if s.mem.hard.any same then
    s.modMem fun m => { m with hard := m.hard.map fun h => if same h then { h with count := h.count + 1 } else h }
  else if fresh then
    let h : HardFault :=
      { bay := b, pc := pc, gaddr := ga, sym := sym, band := (s.bay b).therm.band, load := s.loadClass b pc,
        first := (s.now - s.boot.t0) / 1000000000 }
    let low := (s.mem.hard.map (·.count)).foldl min (2 ^ 40)
    let s := s.bump 0x2C00 0x0B
    s.modMem fun m =>
      if m.hard.length < 4096 then { m with hard := m.hard ++ [h] }
      else
        let i := m.hard.findIdx fun x => x.count == low
        { m with hard := m.hard.set i h }
  else s

/-- What a granule decode leaves: bins, lane counters, failing lanes and counts of hard faults (R281, R295, R296, R299). -/
def State.noteDecode (s : State) (b pc ga : Nat) (r : RsResult) (inner : Bool) : State :=
  let s := s.bin b pc 0
  let s := if inner then s.bin b pc 1 else s
  if !r.ok || r.fixes.isEmpty then s
  else
    let s := s.bin b pc (if r.errs.length == 1 && r.eras == 0 then 2 else 3)
    let s := s.count { code := 0x000E, bay := some b, pc := some pc }
    let s := r.fixes.foldl (fun t p => t.hardFault b pc ga p false) s
    r.fixes.foldl (fun t p =>
      let lane := laneOf p
      let x := t.lanes b pc
      let rec1 := (lane, t.now) :: x.recent.filter fun e => t.now < e.2 + 1000000000
      let t := t.setLanes b { x with counts := x.counts.set lane (x.counts.getD lane 0 + 1), recent := rec1 }
      if t.obj 0x2C00 4 ≤ (rec1.filter fun e => e.1 == lane).length then t.laneFails b pc lane else t) s

/-- Marks a granule found lost (R282), with an uncorrectable event of its PC (R297). -/
def State.markGranule (s : State) (g : Nat) : State :=
  let (b, pc, _) := s.gplace g
  (((s.modMem fun m => markStored m g).bump 0x2C00 7).lostData (32 * g)).uncorrEvent b pc

/-- The granule is dirty in the Carrel, so that the stack's copy is not rewritten (R294). -/
def Mem.dirtyAt (m : Mem) (g : Nat) : Bool :=
  match carrelLine m (g / 2) with
  | some c => c.dirty.getLsbD (g % 2)
  | none => false

/-- One stack read of a granule (R281, R283, R294): the bytes, or none when it is uncorrectable after the re-read, which is a decode of its
own (R299). A granule that the re-read corrects is rewritten unless the Carrel holds a newer one; `err` and `reread` are the symbol errors
met. -/
def State.stackRead (s : State) (g : Nat) (err reread : SymErr) (inner : Bool) : State × Option (List Byte) × RsResult :=
  let (b, pc, ga) := s.gplace g
  let clean : RsResult := { ok := true, word := [], errs := [], eras := 0 }
  let plain := !s.mem.marked.contains g && !s.mem.chk.any fun e => e.1 == g
  let mask := s.windowErasures g
  if err.isEmpty && plain && mask.isEmpty then (s.noteDecode b pc ga clean inner, some (stackGranule s.mem g), clean)
  else
    let era := nub ((s.lanes b pc).erased.map posOf ++ mask)
    let w := s.storedWord g
    let r := decodeGranule w.1 w.2 (addrTag pc ga) era err
    let bytes (r : RsResult) : List Byte := (r.word.drop 4).map (BitVec.ofNat 8)
    if r.ok then (s.noteDecode b pc ga r inner, some (bytes r), r)
    else
      let r2 := decodeGranule w.1 w.2 (addrTag pc ga) era reread
      let s := (s.noteDecode b pc ga r inner).bin b pc 4
      if r2.ok then
        ((s.noteDecode b pc ga r2 inner).modMem fun m => if m.dirtyAt g then m else stackWrite m g (bytes r2), some (bytes r2), r2)
      else
        let s := (s.noteDecode b pc ga r2 inner).bin b pc 4
        let s := if s.mem.marked.contains g then s.uncorrEvent b pc else s.markGranule g
        (s, none, r2)

/-- One Carrel read of a line with symbol errors (R286): whether it decodes, and the evidence it leaves, in the bin of PC `pc`. The tag that
encoded a line is the one that decodes it, so it cancels in the decoder and stands as zero (log 9). -/
def State.carrelDecode (s : State) (b pc : Nat) (data : List Byte) (err : SymErr) : State × Bool :=
  if err.isEmpty then (s, true)
  else
    let d := data.map (·.toNat)
    let r := rsDecode 8 (xorSyms (rsChecks 8 d 0 ++ d) err) 0 (s.bay b).train.carrelErased
    if r.ok then (s.bin b pc 5, true) else (s.bin b pc 6, false)

/-- An uncorrectable Carrel line is lost: a dirty one leaves its dirty granules marked in the stack (R286). -/
def State.loseCarrelLine (s : State) (c : CLine) : State :=
  let s := s.modMem fun m => dropLine m c.line
  ([0, 1].filter fun h => c.dirty.getLsbD h).foldl (fun t h => t.markGranule (2 * c.line + h)) s

end Sys2Proof.Machine
end

