-- ==== Sys2Proof/Machine/Flags.lean ====
section
/-! DEFINITION. The precedence of status codes and the status that a tile's flags give (R54, R152, R156, R201). -/

namespace Sys2Proof.Machine

/-- The place of a status code in the order of R54. -/
def stRank (c : BitVec 4) : Nat :=
  match [0xC, 0x2, 0x3, 0x4, 0x1, 0x7, 0x6, 0xD, 0xE, 0x9, 0x8, 0x5, 0xA, 0xB, 0x0].findIdx? (· == c.toNat) with
  | some i => i
  | none => 15

/-- The first of two status codes in the order of R54. -/
def firstStatus (a b : BitVec 4) : BitVec 4 := if stRank a ≤ stRank b then a else b

/-- The status of a tile that completed as counted: SHORT if a PUSH said so, else by its flags (R152, R154). -/
def tileStatus (short : Bool) (f : BitVec 4) : BitVec 4 := if short then 0x8 else flagStatus f

end Sys2Proof.Machine
end

