-- ==== Sys2Proof/Machine/Tally.lean ====
section
/-! DEFINITION. Tallies and barriers: operations, waits, barriers, signals, owner loss and the event log (R187 to R214). -/

namespace Sys2Proof.Machine

/-- Tally `n`. -/
def State.tally (s : State) (n : Nat) : Tally := getA s.tal.tallies n {}

/-- Replaces Tally `n`; one at its reset state is not listed. -/
def State.setTally (s : State) (n : Nat) (t : Tally) : State :=
  { s with tal := { s.tal with tallies := setA s.tal.tallies n t {} } }

/-- Network time, as the time-of-day input shows it (R210). -/
def State.netTime (s : State) : Nat := ((s.now : Int) + s.tod.offset).toNat

/-- Waiters of a Tally: those whose answer is not yet decided. -/
def State.tallyWaiters (s : State) (n : Nat) : List Waiter := s.tal.waiters.filter fun w => w.tally == n && w.what != .handover

/-- Waiter slots in use (R195). -/
def State.waiterSlots (s : State) : Nat := (s.tal.waiters.filter fun w => w.what != .handover).length

/-- The four words T0 to T3 of a Tally (R187). -/
def State.tallyWords (s : State) (n : Nat) : List W64 :=
  let t := s.tally n
  [t.value ++ t.owner ++ t.oport ++ BitVec.ofBool t.pbind ++ t.state ++ BitVec.ofBool t.wrap ++ t.use_ ++ t.gen ++
      BitVec.ofBool t.armed ++ BitVec.ofBool t.releasing ++ BitVec.ofBool t.bound ++ 0#7,
    t.limit ++ t.shadow,
    t.wtimeout ++ t.outcome ++ 0#3 ++ BitVec.ofNat 17 (s.tallyWaiters n).length ++ 0#24,
    t.armtime ++ 0#32]

/-- An entry of the event log (R214); port 63 for block and Catalogue events. -/
def State.tallyLog (s : State) (kind n : Nat) (value : BitVec 32) (top : Nat := 0) (port : Nat := 63) (src : BitVec 20 := 0) :
    State :=
  let e : TallyLog :=
    { lvalue := value, kind := kind, ltop := top, lport := port, ltally := n, lsrcid := src, ltime := s.now }
  { s.bump 0x2801 1 with tal := { s.tal with log := (e :: s.tal.log).take 256 } }

/-- The 16 bytes of a log entry (R214). -/
def TallyLog.bytes (e : TallyLog) : List Byte :=
  toBytes 8 (e.lvalue.toNat * 2 ^ 32 + e.kind * 2 ^ 28 + e.ltop * 2 ^ 20 + e.lport * 2 ^ 14 + e.ltally) ++
  toBytes 8 (e.lsrcid.toNat * 2 ^ 44 + e.ltime % 2 ^ 44)

/-- The Daybook record of an act on a Tally (R398). -/
def State.tallyRec (s : State) (n top port : Nat) (targ : Nat) (st : BitVec 4) (always : Bool := false) : State :=
  s.record 24 5 (BitVec.ofNat 64 (n * 2 ^ 50 + top * 2 ^ 42 + port * 2 ^ 36))
    (BitVec.ofNat 64 (targ * 2 ^ 32 + (s.tally n).value.toNat)) st.toNat always

/-- Answers a waiter and takes it off the list. -/
def State.answerWaiter (s : State) (w : Waiter) (st : BitVec 4) : State :=
  let s := { s with tal := { s.tal with waiters := s.tal.waiters.filter fun x => x.id != w.id } }
  let s := s.tallyRec w.tally w.msg.top w.msg.port w.msg.targ.toNat st
  let s := if st = stTimeout then
      s.count { code := 0x0121, port := some w.msg.port, dom := some w.msg.hdr.domain.toNat }
    else s
  s.cmp w.msg st

/-- A wait is satisfied (R193). -/
def Tally.satisfies (t : Tally) : WaitFor → Bool
  | .ge targ => if t.wrap then (t.value - targ).toNat < 2 ^ 31 else targ ≤ t.value
  | .eq targ => t.value == targ
  | _ => false

/-- The status of a satisfied wait: OUTCOME on a completion Tally (R202). -/
def Tally.waitStatus (t : Tally) : BitVec 4 := if t.use_ = 2 then t.outcome else stOk

/-- Step 4 of R196 for a barrier: a generation that has reached LIMIT releases, and drains at once where it has no answer to
hand over (R198). -/
def State.settleBarrier : Nat → State → Nat → State
  | 0, s, _ => s
  | f + 1, s, n =>
    let t := s.tally n
    let pending := s.tal.waiters.any fun w => w.tally == n && w.what == .handover
    if t.releasing && !pending then
      let s := s.setTally n { t with gen := t.gen + 1, value := t.shadow, shadow := 0, releasing := false }
      let ws := s.tal.waiters.map fun w => if w.tally == n && w.what == .gen true then { w with what := .gen false } else w
      State.settleBarrier f { s with tal := { s.tal with waiters := ws } } n
    else if !t.releasing && t.value == t.limit then
      let s := s.setTally n { t with releasing := true }
      let ws := s.tal.waiters.map fun w => if w.tally == n && w.what == .gen false then { w with what := .handover } else w
      State.settleBarrier f { s with tal := { s.tal with waiters := ws } } n
    else s

/-- Step 4 of R196: every waiter that the state satisfies is answered, and a full barrier generation releases. An orphaned
Tally has no waiters (R205). -/
def State.settle (s : State) (n : Nat) : State :=
  let t := s.tally n
  if t.use_ = 1 then State.settleBarrier 4 s n
  else (s.tallyWaiters n).foldl (fun u w => if t.satisfies w.what then u.answerWaiter w t.waitStatus else u) s

/-- An addition under R191: the new value, or none where STRICT refuses it. -/
def Tally.plus (t : Tally) (x : BitVec 32) : Option (BitVec 32) :=
  if t.wrap then some (t.value + x)
  else if t.limit.toNat < t.value.toNat + x.toNat then none else some (t.value + x)

/-- A subtraction under R191. -/
def Tally.minus (t : Tally) (x : BitVec 32) : Option (BitVec 32) :=
  if t.wrap then some (t.value - x) else if t.value < x then none else some (t.value - x)

/-- A block signal on a Tally: adds 1, merges an outcome, and settles its waiters; a refusal is logged and counted
(R192, R201). -/
def State.signal (s : State) (n : Nat) (outcome : Option (BitVec 4)) : State :=
  let t := s.tally n
  match t.plus 1 with
  | none => (s.tallyLog 2 n t.value).bump 0x2800 0x0B
  | some v =>
    let o := match outcome with | some o => firstStatus t.outcome o | none => t.outcome
    ((s.setTally n { t with value := v, outcome := o }).tallyRec n 0 63 1 stOk).settle n

/-- A signal of a consignment whose binding a forced free has broken is discarded (R212). -/
def State.signalBound (s : State) (n : Nat) (bound : Bool) (outcome : Option (BitVec 4)) : State :=
  if bound then s.signal n outcome else (s.tallyLog 2 n (s.tally n).value).bump 0x2800 0x0B

/-- The waiter's deadline for a wait that joins now (R194). -/
def State.waitDeadline (s : State) (t : Tally) : Nat :=
  s.now + (if t.wtimeout = 0 then s.obj 0x2800 6 else t.wtimeout.toNat) * 100000

/-- A request joins the waiter list. -/
def State.addWaiter (s : State) (a : Arrival) (what : WaitFor) : State :=
  let w : Waiter :=
    { id := s.tal.nextWaiter, tally := a.tally, what := what, deadline := s.waitDeadline (s.tally a.tally), msg := a }
  { s with tal := { s.tal with waiters := s.tal.waiters ++ [w], nextWaiter := s.tal.nextWaiter + 1 } }

/-- A client operation that changed a Tally: it is recorded, then the waiters are settled and it is answered. -/
def State.tlyDone (s : State) (a : Arrival) (old : Option (BitVec 32)) : State :=
  let s := s.tallyRec a.tally a.top a.port a.targ.toNat stOk
  let s := s.settle a.tally
  match old with
  | some v => s.atomr a stOk (0#32 ++ v)
  | none => s.cmp a stOk

/-- A refusal by STRICT: logged, counted and answered; nothing changes (R191). -/
def State.tlyStrict (s : State) (a : Arrival) (st : BitVec 4) (fetch : Bool) : State :=
  let t := s.tally a.tally
  let kind := if st = stUnderflow then 0 else 1
  let s := (s.tallyLog kind a.tally t.value a.top a.port a.hdr.srcid).bump 0x2800 0x0A
  if fetch then s.atomr a st (0#32 ++ t.value) else s.cmp a st

/-- TOP encodings (R189). -/
def topKnown (top : Nat) : Bool :=
  [0x00, 0x01, 0x02, 0x03, 0x04, 0x08, 0x09, 0x10, 0x11, 0x18, 0x19, 0x1A, 0x1B, 0x1C, 0x1D, 0x1E].contains top

/-- TARG has a bit that its operation does not use (R11, R189), or a reserved USE. -/
def targBad (top : Nat) (targ : BitVec 32) : Bool :=
  if top = 0x00 || top = 0x1C || top = 0x1E then targ != 0
  else if top = 0x10 || top = 0x11 then targ >>> 2 != 0
  else if top = 0x18 then targ >>> 4 != 0 || targ.extractLsb' 1 2 == 3
  else if top = 0x1A then targ >>> 16 != 0
  else false

/-- An operation that only the owner may use, and none on a shared Tally, which the Catalogue alone configures (R189). -/
def topOwnerOnly (top : Nat) : Bool := 0x19 ≤ top

/-- An operation that changes value, and so acts as a release (R105, R189). -/
def topReleases (top : Nat) : Bool := [0x01, 0x02, 0x03, 0x04, 0x10, 0x11, 0x18, 0x1B].contains top

/-- The operation applies to a USE (R189). -/
def topApplies (top : Nat) (use_ : BitVec 2) : Bool :=
  if top = 0x10 || top = 0x11 then use_ = 1
  else if [0x00, 0x18, 0x19, 0x1A, 0x1C].contains top then true
  else use_ = 0 || use_ = 2

/-- ADD, SUB and their fetching forms. -/
def State.tlyArith (s : State) (a : Arrival) : State :=
  let t := s.tally a.tally
  let sub := a.top = 0x02 || a.top = 0x04
  let fetch := a.top = 0x03 || a.top = 0x04
  match (if sub then t.minus a.targ else t.plus a.targ) with
  | none => s.tlyStrict a (if sub then stUnderflow else stOverflow) fetch
  | some v => (s.setTally a.tally { t with value := v }).tlyDone a (if fetch then some t.value else none)

/-- WAIT_GE and WAIT_EQ (R193, R195). -/
def State.tlyWait (s : State) (a : Arrival) : State :=
  let t := s.tally a.tally
  let what := if a.top = 0x08 then WaitFor.ge a.targ else WaitFor.eq a.targ
  if t.satisfies what then (s.tallyRec a.tally a.top a.port a.targ.toNat t.waitStatus).cmp a t.waitStatus
  else if 65536 ≤ s.waiterSlots then s.cmp a stRetry
  else s.addWaiter a what

/-- ARRIVE and ARRIVE_WAIT (R197, R198). -/
def State.tlyArriveOp (s : State) (a : Arrival) : State :=
  let t := s.tally a.tally
  let d := (a.targ.extractLsb' 0 2 - t.gen : BitVec 2)
  let wait := a.top = 0x11
  let full := decide (65536 ≤ s.waiterSlots)
  let finish (t' : Tally) (next : Bool) : State :=
    let s := (s.setTally a.tally t').tallyRec a.tally a.top a.port a.targ.toNat stOk
    let s := if wait then s.addWaiter a (.gen next) else s
    let s := s.settle a.tally
    if wait then s else s.cmp a stOk
  if d = 0 then
    if t.releasing || t.value == t.limit then s.cmp a stDenied
    else if wait && full && t.value + 1 != t.limit then s.cmp a stRetry
    else finish { t with value := t.value + 1 } false
  else if d = 1 then
    if !(t.shadow < t.limit) then s.cmp a stDenied
    else if wait && full then s.cmp a stRetry
    else finish { t with shadow := t.shadow + 1 } true
  else if d = 2 then s.cmp a stRetry
  else s.cmp a stDenied

/-- CLAIM (R188 to R190). A CLAIM under DOMAIN 0xFF is refused, since a shared Tally comes only from the Catalogue. -/
def State.tlyClaimOp (s : State) (a : Arrival) : State :=
  let t := s.tally a.tally
  let busy := !(s.tallyWaiters a.tally).isEmpty || t.bound
  let may := t.state = 0 || t.state = 2 || (t.state = 1 && t.owner != 0xFF && t.owner == a.hdr.domain && !busy)
  if !may || a.hdr.domain = 0xFF then s.cmp a stDenied
  else
    let t' : Tally :=
      { owner := a.hdr.domain, oport := BitVec.ofNat 6 a.port, pbind := a.targ.getLsbD 3, state := 1, wrap := a.targ.getLsbD 0
        use_ := a.targ.extractLsb' 1 2, bound := t.bound }
    (s.setTally a.tally t').tlyDone a none

/-- SETLIMIT and SETTIMEOUT, as a client or the Catalogue gives them: whether R190 refuses, and the Tally after it. -/
def State.tlyConfig (s : State) (n top : Nat) (v : BitVec 32) : Option Tally :=
  let t := s.tally n
  if !(s.tallyWaiters n).isEmpty then none
  else if top = 0x1A then some { t with wtimeout := v.extractLsb' 0 16 }
  else if t.use_ = 1 && (t.value != 0 || t.shadow != 0 || t.releasing || v = 0) then none
  else some { t with limit := v }

/-- The first instant after now whose network time matches an ARMTIME (R208), and how far ahead it lies. -/
def State.armTarget (s : State) (armtime : BitVec 32) : Nat × Nat :=
  let net := s.netTime
  let d := (armtime.toNat * 256 + 2 ^ 40 - net % 2 ^ 40) % 2 ^ 40
  let d := if d = 0 then 2 ^ 40 else d
  (net + d, d)

/-- A client operation as the Tally island applies it (R188 to R208). -/
def State.tlyApply (s : State) (a : Arrival) : State :=
  let n := a.tally
  let t := s.tally n
  let top := a.top
  let s := s.count { code := 0x0120, port := some a.port, dom := some a.hdr.domain.toNat }
  if !topKnown top || targBad top a.targ then s.refuse a stDenied
  else if top = 0x00 then s.atomr a stOk ((s.tallyWords n).headD 0)
  else if top = 0x18 then s.tlyClaimOp a
  else if t.state = 2 then s.refuse a stOwnerlost
  else if t.state != 1 || (t.owner != 0xFF && t.owner != a.hdr.domain) || (topOwnerOnly top && (t.owner == 0xFF || t.owner != a.hdr.domain)) ||
      !topApplies top t.use_ then s.refuse a stDenied
  else if top ≤ 0x04 then s.tlyArith a
  else if top = 0x08 || top = 0x09 then s.tlyWait a
  else if top = 0x10 || top = 0x11 then s.tlyArriveOp a
  else if top = 0x19 || top = 0x1A then
    match s.tlyConfig n top a.targ with
    | none => s.cmp a stDenied
    | some t' => (s.setTally n t').tlyDone a none
  else if top = 0x1B then
    if !(s.tallyWaiters n).isEmpty || (!t.wrap && t.limit < a.targ) then s.cmp a stDenied
    else (s.setTally n { t with value := a.targ, outcome := 0 }).tlyDone a none
  else if top = 0x1C then
    if !(s.tallyWaiters n).isEmpty || t.bound then s.cmp a stDenied
    else (s.setTally n {}).tlyDone a none
  else if top = 0x1D then
    let (at_, d) := s.armTarget a.targ
    if d < 1000 || 2 ^ 39 < d || s.tod.state != 1 || t.armed then s.cmp a stDenied
    else (s.setTally n { t with armed := true, armtime := a.targ, armAt := some at_ }).tlyDone a none
  else (s.setTally n { t with armed := false, armAt := none, late := false }).tlyDone a none

/-- Tallies that lose their owner: waiters answered OWNERLOST, state orphaned, ARMED clear (R204, R205). The answer's second
part is their number. -/
def State.loseOwners (s : State) (lost : Tally → Bool) : State × Nat :=
  let l := s.tal.tallies.filter fun e => e.2.state = 1 && e.2.owner != 0xFF && lost e.2
  let s := l.foldl (fun u e =>
    let u := (u.tallyWaiters e.1).foldl (fun v w => v.answerWaiter w stOwnerlost) u
    let u := u.setTally e.1 { u.tally e.1 with state := 2, armed := false, armAt := none, late := false }
    u.tallyRec e.1 0 63 0 stOwnerlost) s
  (s, l.length)

/-- A port event: the Tallies bound to the port lose their owner, with one log entry if there are any (R203, R204). -/
def State.portLoss (s : State) (p : Nat) : State :=
  let r := s.loseOwners fun t => t.pbind && t.oport.toNat == p
  if r.2 = 0 then r.1 else r.1.tallyLog 4 0 (BitVec.ofNat 32 r.2)

/-- An OWNER_LOST notice (R203, R204). -/
def State.noticeLoss (s : State) (a : Arrival) : State :=
  let r := s.loseOwners fun t => t.owner == a.lostdom
  (r.1.tallyLog 4 0 (BitVec.ofNat 32 r.2) 0 a.port (0#12 ++ a.lostdom)).cmp a stOk

/-- The stopped state answers every waiter FENCED (R207). -/
def State.fenceWaiters (s : State) : State := s.tal.waiters.foldl (fun u w => u.answerWaiter w stFenced) s

/-- A debugger set of VALUE (R212): none where it is an access error. -/
def State.debugSet (s : State) (n v : Nat) : Option State :=
  let t := s.tally n
  if t.state = 0 || ((!t.wrap || t.use_ = 1) && t.limit.toNat < v) then none
  else
    let s := (s.tallyLog 3 n t.value).bump 0x2800 0x0C
    let s := (s.setTally n { t with value := BitVec.ofNat 32 v }).tallyRec n 0 63 v stOk true
    let s := if s.determinism then s.setFlag 0 5 else s
    some (s.settle n)

/-- A forced free (R212). An answer that a released barrier generation still hands over stays OK (R198). -/
def State.forcedFree (s : State) (n : Nat) : State :=
  let t := s.tally n
  let s := (s.tallyWaiters n).foldl (fun u w => u.answerWaiter w stOwnerlost) s
  let s := (s.tallyLog 6 n t.value).bump 0x2800 0x0C
  let s := (s.setTally n {}).tallyRec n 0 63 0 stOk true
  let s := if s.determinism then s.setFlag 0 5 else s
  { s with cons := s.cons.map fun c => { c with ctBound := c.ctBound && c.slip.ctally != some n
                                                ttBound := c.ttBound && c.slip.ttally != some n } }

/-- Creates a shared Tally (R215): none where it is an access error. -/
def State.createShared (s : State) (n v : Nat) : Option State :=
  let t := s.tally n
  if t.state != 0 || 8 ≤ v || bits v 2 1 == 3 then none
  else
    let t' : Tally := { t with owner := 0xFF, state := 1, wrap := bit v 0, use_ := BitVec.ofNat 2 (bits v 2 1) }
    some ((s.setTally n t').tallyRec n 0 63 v stOk)

/-- A Catalogue write of LIMIT or WTIMEOUT (R213): none where it is an access error. -/
def State.configTally (s : State) (n top v : Nat) : Option State :=
  if (s.tally n).state = 0 then none
  else (s.tlyConfig n top (BitVec.ofNat 32 v)).map fun t => (s.setTally n t).tallyRec n 0 63 v stOk

/-- Marks the Tallies a consignment names as bound or not (R200): not bound once no consignment names them. -/
def State.rebind (s : State) (n : Nat) : State :=
  let named := s.cons.any fun c =>
    c.state != .admitting && ((c.slip.ctally == some n && c.ctBound) || (c.slip.ttally == some n && c.ttBound))
  s.setTally n { s.tally n with bound := named }

/-- WAITER_TIMEOUT: a waiter's deadline has come (R194). -/
def execWaiterTimeout (id : Nat) (s : State) : Out :=
  match s.tal.waiters.find? fun w => w.id == id && w.what != .handover with
  | some w => .next ((s.reach w.deadline).answerWaiter w stTimeout)
  | none => .next s

/-- BARRIER_ANSWER_HANDOVER: in a Tally-island cycle, one answer of a releasing generation leaves, and the last one drains it
(R198). -/
def execBarrierAnswerHandover (tally : Nat) (s : State) : Out :=
  match s.tal.waiters.find? fun w => w.tally == tally && w.what == .handover with
  | some w =>
    let s := s.pass 1
    let s := s.answerWaiter w stOk
    .next (if (s.tally tally).use_ = 1 then State.settleBarrier 4 s tally else s)
  | none => .next s

/-- The pausing or paused states, in which no armed Tally is released (R211, R407). -/
def State.pausing (s : State) : Bool := s.obj 0x2E00 0x0E == 1 || s.obj 0x2E00 0x0E == 2

/-- Releases an armed Tally (R208 to R211). -/
def State.armedFire (s : State) (n : Nat) : State :=
  let t := s.tally n
  let hold := s.tod.state == 2
  let s := s.setTally n { t with armed := false, armAt := none, late := false }
  let s := if hold then (s.tallyLog 5 n t.value).markTiming 6 else s
  let s := if t.late then s.tallyLog 7 n t.value else s
  (s.record 24 6 (BitVec.ofNat 64 s.netTime) (BitVec.ofNat 64 (2 ^ 14 + n)) 0).signal n none

/-- ARMED_RELEASE: an armed Tally's target time is reached (R208 to R211). -/
def execArmedRelease (tally : Nat) (s : State) : Out :=
  let t := s.tally tally
  match t.armed, t.armAt with
  | true, some at_ =>
    if s.tod.state == 0 then .next s
    else
      let u := s.reach ((at_ : Int) - s.tod.offset).toNat
      if u.pausing then .next (u.setTally tally { t with late := true })
      else .next (u.armedFire tally)
  | _, _ => .next s

end Sys2Proof.Machine
end

