-- ==== Sys2Proof/Machine/Tile.lean ====
section
/-! DEFINITION. Tiles of a consignment: homes, opening, completion, and what follows when the last copy has left
(R73, R144 to R157). -/

namespace Sys2Proof.Machine

/-- A tile that a consignment still holds a record of. -/
def Con.tile? (c : Con) (i : Nat) : Option Tile := c.tiles.find? fun t => t.idx == i

/-- Changes a tile. -/
def State.modTile (s : State) (cid i : Nat) (f : Tile → Tile) : State :=
  s.modCon cid fun c => { c with tiles := c.tiles.map fun t => if t.idx == i then f t else t }

/-- The home bay of tile `i`, under the entries that placed the consignment at its admission (R73, R134). -/
def State.homeOf (s : State) (c : Con) (i : Nat) : Nat :=
  (({ s with shelf := { s.shelf with entries := c.map } } : State).place (hallOffset (c.slip.tileAddr i))).1

/-- The first index from `i` on, over `n` indices, that satisfies a test. -/
def firstIdx (f : Nat → Bool) : Nat → Nat → Option Nat
  | 0, _ => none
  | n + 1, i => if f i then some i else firstIdx f n (i + 1)

/-- A tile has opened, or completed without opening. -/
def Con.begun (c : Con) (i : Nat) : Bool := (c.tile? i).isSome || c.closed.any fun e => e.1 == i

/-- A tile has completed: its count is reached, or it ended without (R148 to R150). -/
def Con.completed (c : Con) (i : Nat) : Bool :=
  (match c.tile? i with | some t => t.phase != .open_ | none => false) || c.closed.any fun e => e.1 == i

/-- A tile has completed and its post is decided. -/
def Con.decided (c : Con) (i : Nat) : Bool :=
  (match c.tile? i with | some t => t.phase == .posted | none => false) || c.closed.any fun e => e.1 == i

/-- Tiles completed, as 0x2060:04 counts them. -/
def Con.doneCount (c : Con) : Nat := c.closed.length + (c.tiles.filter fun t => t.phase == .posted).length

/-- The lowest tile homed in a bay that has not opened (R145). -/
def State.nextTile (s : State) (c : Con) (b : Nat) : Option Nat :=
  firstIdx (fun i => !c.begun i && s.homeOf c i == b) c.slip.ntiles 0

/-- Opens tile `i` (R145): a slot, an empty accumulator, and the timeout of R149 from now. -/
def State.openTile (s : State) (cid i b : Nat) : State :=
  s.modCon cid fun c =>
    { c with tiles := c.tiles ++ [{ idx := i, bay := b, openedAt := s.now, acc := c.slip.freshAcc,
                                    flags := if c.weightBad then flUncorr else 0 }] }

/-- Opens the next tile of a bay while the consignment is active. -/
def State.openNext (s : State) (cid b : Nat) : State :=
  match s.con cid with
  | none => s
  | some c =>
    if c.slip.kind != 1 || c.state != .active then s
    else match s.nextTile c b with
      | some i => s.openTile cid i b
      | none => s

/-- Merges a status into a consignment's outcome (R156). -/
def State.outcome (s : State) (cid : Nat) (st : BitVec 4) : State :=
  s.modCon cid fun c => { c with outcome := firstStatus c.outcome st }

/-- The copy has left its port, or was dropped. -/
def CopySt.gone : CopySt → Bool
  | .waiting => false
  | _ => true

/-- The copy needs nothing more: sent as a RESULT, acknowledged, or dropped. -/
def CopySt.over : CopySt → Bool
  | .sent | .dropped => true
  | _ => false

/-- What follows when a completed tile has nothing left to send (R145, R157): its slot is freed and the next tile of the
bay opens, TTALLY is signalled, and the record closes once every PUSH is answered. `digest` 0 and 3: none awaited. -/
def State.tileSettle (s : State) (cid i : Nat) : State :=
  match s.con cid with
  | none => s
  | some c =>
    match c.tile? i with
    | none => s
    | some t =>
      if t.phase != .posted || !(t.digest == 0 || t.digest == 3) || t.copies.any (fun k => !k.gone) then s
      else
        let s1 := if t.left then s else
          let u := s.modTile cid i fun t => { t with left := true, slot := false }
          let u := match c.slip.ttally with
            | some n => u.signalBound n c.ttBound none
            | none => u
          if t.slot then u.openNext cid t.bay else u
        if t.copies.all CopySt.over then
          s1.modCon cid fun c =>
            { c with tiles := c.tiles.filter (fun t => t.idx != i), closed := c.closed ++ [(i, t.status)] }
        else s1

/-- A tile completes with a status (R148 to R152): after its post, or without one. Contributions that wait for an earlier one
under replay are answered EXCESS (R402). A contribution that no lane has applied when the tile ends SHORT at its timeout or its release, or
FENCED, leaves no flag of its own: its conversion never ran (DESIGN CHOICE, log 49). -/
def State.completeTile (s : State) (cid i : Nat) (st : BitVec 4) : State :=
  match s.con cid with
  | none => s
  | some c =>
    if c.decided i then s else
    let bay := if c.slip.kind = 2 then (s.place (hallOffset (c.slip.srcAddr i))).1 else s.homeOf c i
    let t := (c.tile? i).getD { idx := i, bay := bay, openedAt := s.now, slot := false }
    let short := st = stShort || st = stFenced
    let fl : BitVec 4 := if st = stShort then t.flags ||| flShort else t.flags
    let dig := if short || c.slip.postmark.isNone then 0 else 1
    let t2 : Tile :=
      { t with phase := .posted, status := st, flags := fl, doneAt := if t.phase == .posting then t.doneAt else s.now, copies := c.slip.dests.map fun _ => .waiting
               staged := [], batches := [], acc := [], accBad := [], digest := dig, replayWait := []
               out := if short then [] else t.out }
    let s := s.modCon cid fun c =>
      { c with tiles := (c.tiles.filter fun x => x.idx != i) ++ [t2], outcome := firstStatus c.outcome st }
    let s := s.count { code := 0x0023, bay := some t.bay, cls := some (clsOf c.msg) }
    let s := if st = stShort then s.bump 0x2060 6 else s
    let s := if fl.getLsbD 1 then s.bump 0x2070 3 else s
    let s := if fl.getLsbD 0 then s.bump 0x2070 4 else s
    let s := t.replayWait.foldl (fun u w => (u.bump 0x2060 5).refuse w.2 stExcess) s
    s.tileSettle cid i

/-- Tiles of a consignment that have not completed. -/
def Con.unfinished (c : Con) : List Nat := (List.range c.slip.ntiles).filter fun i => !c.completed i

/-- Tiles of a consignment whose count is reached and whose last batches no lane has applied yet: a fence finds them not posted (R122). -/
def Con.unapplied (c : Con) : List Nat := (c.tiles.filter fun t => t.phase == .posting && !t.batches.isEmpty).map (·.idx)

/-- Completes every open and unopened tile of a consignment with a status (R150, R158, R19). -/
def State.endTiles (s : State) (cid : Nat) (st : BitVec 4) : State :=
  match s.con cid with
  | none => s
  | some c => (c.unfinished ++ if st = stFenced then c.unapplied else []).foldl (fun u i => u.completeTile cid i st) s

/-- Completes every open and unopened tile homed in a bay with FENCED, and those that still wait for a lane (R122, R150). -/
def State.fenceTiles (s : State) (b : Nat) : State :=
  s.cons.foldl (fun u c =>
    if c.slip.kind == 1 && c.state != .admitting then
      ((c.unfinished ++ c.unapplied).filter fun i => s.homeOf c i == b).foldl (fun v i => v.completeTile c.cid i stFenced) u
    else u) s

end Sys2Proof.Machine
end

