-- ==== Sys2Proof/Machine/Requests.lean ====
section
/-! DEFINITION. Requests in flight: sorting, valid bits, reads, staging and posting of writes, atomics, mirror copies and answers
(R49 to R51, R75 to R77, R94 to R117, R287 to R292). -/

namespace Sys2Proof.Machine

/-- A request in flight. -/
def State.op (s : State) (id : Nat) : Option Op := s.ops.find? fun o => o.id == id

/-- Changes a request in flight. -/
def State.modOp (s : State) (id : Nat) (f : Op → Op) : State :=
  { s with ops := s.ops.map fun o => if o.id == id then f o else o }

/-- A new number in arrival order. -/
def State.newId (s : State) : Nat × State := (s.nextId, { s with nextId := s.nextId + 1 })

/-- Adds a request in flight; requests stand in arrival order. -/
def State.addOp (s : State) (o : Op) : State := { s with ops := insertBy (fun x => x.id) o s.ops }

/-! ### Fences and releasing Tally operations (R104, R105) -/

/-- A waiting FENCE that needs a request only until it is performed (R104): an acquire. -/
def Waiting.acquires (w : Waiting) : Bool := w.kind == .fence 2

/-- A request is performed: an acquire FENCE waits for it no longer, whatever its mirror copy still needs (R104). -/
def State.uncoverPerformed (s : State) (id : Nat) : State :=
  { s with waits := s.waits.map fun w => if w.acquires then { w with covers := w.covers.filter (· != id) } else w }

/-- A request is no longer waited for by any fence. -/
def State.uncover (s : State) (id : Nat) : State :=
  { s with waits := s.waits.map fun w => { w with covers := w.covers.filter (· != id) } }

/-- Completes the fences and Tally operations that wait for nothing more, in their order. -/
def State.settleWaits : Nat → State → State
  | 0, s => s
  | n + 1, s =>
    match s.waits.find? fun w => w.covers.isEmpty with
    | none => s
    | some w =>
      let s := { s with waits := s.waits.erase w }
      State.settleWaits n (match w.kind with
        | .tly _ => s.tlyApply w.msg
        | _ => s.cmp w.msg stOk)

/-- A request is over: it has been answered or its effect on memory is complete. -/
def State.endOp (s : State) (id : Nat) : State :=
  let s := { s with ops := s.ops.filter fun o => o.id != id }
  State.settleWaits s.waits.length (s.uncover id)

/-- A request or fence waits for others: it completes at once where there are none. -/
def State.addWait (s : State) (kind : ReqKind) (a : Arrival) (covers : List Nat) : State :=
  let s := { s with waits := s.waits ++ [{ kind := kind, msg := a, covers := covers }] }
  State.settleWaits s.waits.length s

/-! ### Mirror copies (R77, R113 to R116) -/

/-- The FWR sequence of a partner. -/
def State.partner (s : State) (b : Nat) : Partner := (s.partners.find? fun p => p.block == b).getD { block := b }

/-- Replaces the FWR sequence of a partner. -/
def State.setPartner (s : State) (p : Partner) : State :=
  { s with partners := (s.partners.filter fun q => q.block != p.block) ++ [p] }

/-- A tag that no unanswered FWR or PUSH of the block carries; the search starts at `t`. -/
def State.freeTag (s : State) : Nat → BitVec 16 → BitVec 16
  | 0, t => t
  | n + 1, t =>
    let used := s.partners.any (fun p => p.unanswered.any fun x => x.tag == t) ||
      s.cons.any fun c => c.tiles.any fun k => k.copies.any fun x => match x with | .pushed g _ => g == t | _ => false
    if used then State.freeTag s n (t + 1) else t

/-- The port a mirror copy leaves on: the given one, or the other of its bay pair; none while both are down (R113). -/
def State.pairPort (s : State) (p : Nat) : Option Nat :=
  let q := if p % 2 = 0 then p + 1 else p - 1
  if s.inService p then some p else if s.inService q then some q else none

/-- Sends an FWR, new or again, under the next SEQ of its partner (R113, R115). -/
def State.sendFwr (s : State) (x : SentFwr) (block : Nat) : State :=
  let p := s.partner block
  match s.pairPort x.home with
  | none => s.setPartner { p with unanswered := p.unanswered ++ [{ x with sent := false, again := false }] }
  | some q =>
    let sync := p.needSync || !p.unanswered.any fun y => y.sent || y.again
    let h := { x.hdr with ord := true, sync := sync, seq := p.nextSeq }
    let y := { x with sent := true, again := false, seq := p.nextSeq, sync := sync, port := q, hdr := h }
    let s := s.setPartner { p with unanswered := p.unanswered ++ [y], nextSeq := p.nextSeq + 1, needSync := false }
    s.send q h x.data

/-- Makes and sends the FWR of a performed write (R77, R113). `first` is the hall offset of the first granule written, `data`
the granules as they now stand. -/
def State.forward (s : State) (op : Nat) (tile : Option (Nat × Nat)) (block first port : Nat) (cls : BitVec 6)
    (data : List Byte) : State :=
  let p := s.partner block
  let tag := s.freeTag 65536 p.nextTag
  let s := s.setPartner { p with nextTag := tag + 1 }
  let h : Hdr :=
    { opcode := 0x41, mclass := 2, tclass := cls, srcid := BitVec.ofNat 20 s.blockNo, tag := tag
      len := BitVec.ofNat 12 (data.length / 32 - 1), addr := BitVec.ofNat 54 (block * 2 ^ 42 + first) }
  s.sendFwr { tag := tag, seq := 0, sync := false, home := port, port := port, op := some op, tile := tile, hdr := h
              data := padTo (ceilDiv data.length 64 * 64) data, deadline := s.now + s.obj 0x2050 1 * 1000 } block

/-! ### Answers of finished requests -/

/-- A digest write is decided (R405): the tile's copies may leave. -/
def State.digestDone (s : State) (cid tile : Nat) : State :=
  (s.modTile cid tile fun t => { t with digest := 3 }).tileSettle cid tile

/-- Answers a write that was performed, or that was refused before its post (R97, R122, R150, R287, R405). -/
def State.finishWrite (s : State) (o : Op) (st : BitVec 4) : State :=
  let s := match o.kind with
    | .wr => s.cmp o.msg st
    | .atom => s.atomr o.msg st (if o.posted.isSome || st = stOk then o.old else 0)
    | .fwrIn => s.answerWith o.msg (answerHdr o.msg 0x26 st)
    | .tileWr cid i =>
      if o.posted.isSome then (if st = stOk then s else s.outcome cid st) else s.completeTile cid i stFenced
    | .digestWr cid i =>
      if o.posted.isSome then (if st = stOk then s else s.outcome cid st)
      else (s.outcome cid stFenced).digestDone cid i
    | _ => s
  s.endOp o.id

/-- Refuses a request at Sorting or later, before it changed anything. -/
def State.refuseOp (s : State) (o : Op) (st : BitVec 4) : State :=
  match o.kind with
  | .wr | .atom | .fwrIn | .tileWr _ _ | .digestWr _ _ => s.finishWrite o st
  | _ => (s.refuse o.msg st).endOp o.id

/-- A bay has served bytes of a request, from the Carrel or the stack: the guarantee bucket drains, and the request's last bytes there give
its latency in the bay (R264, R265). -/
def State.bayServes (s : State) (o : Op) (b bytes : Nat) (last : Bool) : State :=
  let s := if last then s.noteLatency b (clsOf o.msg) (s.now - o.inAt) else s
  if o.green then s.drainGuar b (clsOf o.msg) bytes else s

/-- Each bay of a list of places, one for each granule, has served a request whole. -/
def State.served (s : State) (o : Op) (places : List Nat) : State :=
  (nub places).foldl (fun t b => t.bayServes o b (32 * (places.filter (· == b)).length) true) s

/-- Answers a read whose parts are all done (R55, R98). -/
def State.finishRead (s : State) (o : Op) : State :=
  let bad := (o.parts.mapIdx fun i p => (i, p.bad)).filterMap fun e => if e.2 then some e.1 else none
  let data := o.parts.flatMap fun p => if p.bad then zeros 32 else padTo 32 p.data
  (s.rdr o.msg (if bad.isEmpty then stOk else stUncorr) data bad).endOp o.id

/-! ### What a request covers -/

/-- Hall offset of a request's first granule, in granules. -/
def Op.first (o : Op) : Nat := hallOffset o.msg.hdr.addr.toNat / 32

/-- The granules of a request's span: one for an ATOM. -/
def Op.count (o : Op) : Nat := if o.kind = .atom then 1 else o.msg.granules

/-- Byte enables of granule `i` of a writing request; only a WR has partial ones (R46). -/
def Op.be (o : Op) (i : Nat) : Nat := if o.kind = .wr then byteEnables o.msg i else 0xFFFFFFFF

/-- Indices of the granules that a request writes to. -/
def Op.written (o : Op) : List Nat := (List.range o.count).filter fun i => o.be i != 0

/-- The request writes to memory. -/
def Op.writes (o : Op) : Bool := match o.kind with | .rd => false | _ => true

/-- The 4 KiB blocks that a request needs a decision on (R289). -/
def Op.blocks (o : Op) : List Nat :=
  nub ((if o.writes then o.written else List.range o.count).map fun i => (o.first + i) / 128)

/-- A block whose bits were lost in both copies, and that no fill has restored (R292). -/
def State.lostBlock (s : State) (blk : Nat) : Bool := s.shelf.badLines.contains (blk / 512) && !s.validBit blk

/-- The segment entry of a request. -/
def State.opEntry (s : State) (o : Op) : Entry := s.entry (o.first / 2 ^ 19)

/-- The occurrence of a counter event at a request's granule. -/
def Op.occ (o : Op) (code b pc g : Nat) (block : Nat) : Occ :=
  { code := code, bay := some b, pc := some pc, cls := some (clsOf o.msg), addr := some (block * 2 ^ 42 + 32 * g)
    dom := some o.msg.hdr.domain.toNat }

/-! ### Atomics (R100) -/

/-- The result of an atomic operation on an operand of `n` bits: the new value, or none where it writes nothing. -/
def atomResult (aop n old operand compare : Nat) : Option Nat :=
  let m := 2 ^ n
  let x := operand % m
  if aop = 0 then some ((old + x) % m)
  else if aop = 1 then some x
  else if aop = 2 then (if old = compare % m then some x else none)
  else if aop = 3 then some (if signed n x < signed n old then x else old)
  else if aop = 4 then some (if signed n old < signed n x then x else old)
  else if aop = 5 then some (min old x)
  else some (max old x)

/-- Operand size of an ATOM in bytes. -/
def atomBytes (a : Arrival) : Nat := if a.asize then 8 else 4

/-- The old operand in a granule's bytes, and the granule after the operation, if it writes. -/
def atomOn (a : Arrival) (g : List Byte) : Nat × Option (List Byte) :=
  let n := atomBytes a
  let at_ := a.hdr.addr.toNat % 32
  let old := ofBytes ((g.drop at_).take n)
  (old, (atomResult a.aop (8 * n) old a.hdr.w4.toNat a.hdr.w5.toNat).map fun v =>
    g.take at_ ++ toBytes n v ++ g.drop (at_ + n))

/-! ### Capacity of the Carrel (R234, R235, R268) -/

/-- Lines of the cache region of a bay whose accumulators take `acc` bytes (R234). -/
def cacheLines (acc : Nat) : Nat := (4294967296 - 536870912 - acc) / 1024 * 16

/-- The Carrel lines of a bay. -/
def State.bayLines (s : State) (b : Nat) : List CLine := s.mem.carrel.filter fun c => (s.place (64 * c.line)).1 == b

/-- Accumulator bytes reserved in a bay (R144, R234). -/
def State.accReserved (s : State) (b : Nat) : Nat :=
  sumN ((s.cons.filter fun x => x.reserved.contains b).map (·.accBytes))

/-- The first group of victims that is not empty (R268): the allocating class's own lines at its ceiling, lines of classes over their
minimum, the real-time class last, then any. -/
def State.victims (s : State) (b cls : Nat) (set_ : List CLine) : List CLine :=
  let low (c : Nat) : Nat := s.obj (0x2600 + c) 0x0D * 1048576
  let own := if s.obj (0x2600 + cls) 0x0E * 1048576 ≤ s.carrelUse b cls then set_.filter fun l => l.cls == cls else []
  let above := set_.filter fun l => l.cls != 0 && low l.cls < s.carrelUse b l.cls
  let real := set_.filter fun l => l.cls == 0 && low 0 < s.carrelUse b 0
  if !own.isEmpty then own else if !above.isEmpty then above else if !real.isEmpty then real else set_

/-- Room for a new line of a class in its set of a bay (R235, R268). Which line of the victims' group the pseudo-LRU takes is a free value. A
dirty victim leaves with its write-back; the new line stands beside it until then (DESIGN CHOICE, log 48). -/
def State.allocLine (s : State) (b line cls : Nat) : State :=
  if (carrelLine s.mem line).isSome then s
  else
    let lines := s.bayLines b
    if lines.length < 16 then s
    else
      let n := cacheLines (s.accReserved b) / 16
      let set_ := lines.filter fun l => Config.carrelSet l.line n == Config.carrelSet line n && !l.evict
      if set_.length < 16 then s
      else
        let vs := s.victims b cls set_
        let (x, s) := s.draw
        match vs[x.toNat % vs.length]? with
        | none => s
        | some v => s.evictLine v.line

/-! ### Posting (R101 to R103, R290) -/

/-- The value of a granule as a request sees it: zero where its block's valid bit is clear (R91). -/
def State.seen (s : State) (g : Nat) : List Byte := if s.validBit (g / 128) then (granule s.mem g).1 else zeros 32

/-- The bytes that a posted request leaves in its granule `i`. -/
def State.newBytes (s : State) (o : Op) (i : Nat) : List Byte :=
  let old := s.seen (o.first + i)
  let slice := padTo 32 ((o.msg.payload.drop (32 * i)).take 32)
  if o.kind = .atom then ((atomOn o.msg old).2).getD old
  else if o.be i = 0xFFFFFFFF then slice else mergeBytes (o.be i) slice old

/-- A granule as a read sees it: its bytes, zero under a clear valid bit, and whether they are lost (R91, R292). -/
def State.asRead (s : State) (g : Nat) : List Byte × Bool :=
  if s.validBit (g / 128) then granule s.mem g else (zeros 32, s.lostBlock (g / 128))

/-- Two requests of one sequence, by their turns (R95). -/
def Op.before (x y : Op) : Bool := x.msg.hdr.ord && y.msg.hdr.ord && seqKey x.msg == seqKey y.msg && x.turn < y.turn

/-- The value of a read's granules in line `l` is fixed as it stands (R94, R98). -/
def Op.fixLine (s : State) (l : Nat) (r : Op) : Op :=
  { r with parts := r.parts.map fun p =>
      if p.gran / 2 == l && p.phase != .done && p.keep.isNone then { p with keep := some (s.asRead p.gran) } else p }

/-- Reads that must still return the old lines take a copy of them (R103): those sorted before the post, unless they follow it in their
source's order, those that precede it there, and those that have already fixed another granule of the line (R95, R96, R98). A read whose
valid bits are not decided keeps what its granules hold. -/
def State.keepOld (s : State) (o : Op) (lines : List Nat) : State :=
  { s with ops := s.ops.map fun r =>
      if r.kind != .rd then r
      else
        let early := r.before o || (r.sortTime < s.now && !o.before r)
        match r.stage with
        | .vbit _ =>
          if early then
            let gs := ((List.range r.count).map (r.first + ·)).filter fun g =>
              lines.contains (g / 2) && !r.snap.any fun e => e.1 == g
            { r with snap := r.snap ++ gs.map fun g => (g, s.asRead g) }
          else r
        | _ => lines.foldl (fun x l =>
            if early || x.parts.any (fun p => p.phase == .done && p.gran / 2 == l) then x.fixLine s l else x) r }

/-- A read has fixed its value of a line: the reads of the line that Sorting issued before it return no newer one (R96, R125). -/
def State.fixEarlier (s : State) (sortNo l : Nat) : State :=
  { s with ops := s.ops.map fun r => if r.kind == .rd && r.sortNo < sortNo then r.fixLine s l else r }

/-- Performs a request's lines, and with them the fills of its blocks (R102, R290). -/
def State.perform (s : State) (o : Op) : State :=
  let e := s.opEntry o
  let mine := o.written.map fun i => (o.first + i, s.newBytes o i)
  let fill := o.fills.flatMap fun blk =>
    ((List.range 128).map fun i => (128 * blk + i, zeros 32)).filter fun x => !mine.any fun y => y.1 == x.1
  let all := fill ++ mine
  let lines := nub (all.map fun x => x.1 / 2)
  let s := s.keepOld o lines
  let s := lines.foldl (fun t l => t.allocLine (t.place (64 * l)).1 l (clsOf o.msg)) s
  let s := s.modMem fun m => all.foldl (fun m x => writeGranule m x.1 x.2 (clsOf o.msg) s.now e.pktbuf) m
  let s := o.fills.foldl (fun t blk => t.setValid blk) s
  let evict := match o.kind with
    | .tileWr cid _ => (match s.con cid with | some c => c.slip.evict | none => false)
    | _ => false
  if evict then
    let lines := nub (mine.map fun x => x.1 / 2)
    lines.foldl State.evictLine s
  else s

/-- The port pair on which a request's mirror copy leaves (R113). -/
def Op.mirrorPort (o : Op) : Nat := o.msg.port

/-- After the local lines of a write are performed: the mirror copy, or the answer (R97, R113, R374). -/
def State.afterPerform (s : State) (o : Op) : State :=
  let e := s.opEntry o
  let own := match o.kind with | .fwrIn => false | _ => true
  let tile := match o.kind with | .tileWr c i => some (c, i) | .digestWr c i => some (c, i) | _ => none
  let s := match o.kind with
    | .tileWr cid i =>
      (match s.con cid with
        | some c => s.completeTile cid i (tileStatus false (((c.tile? i).map fun (k : Tile) => k.flags).getD 0))
        | none => s)
    | .digestWr cid i => s.digestDone cid i
    | _ => s
  match o.written with
  | [] => s.finishWrite o stOk
  | i0 :: _ =>
    if e.mirror && own then
      if s.obj 0x2D00 0x13 == 1 then (s.bump 0x2D00 0x14).finishWrite o stOk
      else
        let last := o.written.getLastD i0
        let data := (List.range (last + 1 - i0)).flatMap fun k => s.seen (o.first + i0 + k)
        let s := (s.modOp o.id fun x => { x with stage := .mirror }).uncoverPerformed o.id
        let s := State.settleWaits s.waits.length s
        s.forward o.id tile e.mpartner (32 * (o.first + i0)) o.mirrorPort o.msg.hdr.tclass data
    else s.finishWrite o stOk

/-- The post of a request whose bays have all confirmed (R102): its lines are performed. A compare-swap that fails writes
nothing (R100). -/
def State.post (s : State) (id : Nat) : State :=
  match s.op id with
  | none => s
  | some o =>
    let res := atomOn o.msg (s.seen o.first)
    let o := if o.kind = .atom then { o with old := BitVec.ofNat 64 res.1 } else o
    let o := { o with posted := some s.now }
    let s := s.modOp id fun _ => o
    let s := s.stamp o.msg.port o.msg.hdr fun i => { i with d4 := i.d4.orElse fun _ => some s.time, d5 := some s.time }
    if o.kind = .atom && res.2.isNone then s.finishWrite o stOk
    else
      let places := o.written.map fun i => (s.place (32 * (o.first + i))).1
      ((s.perform o).served o places).afterPerform { o with fills := [] }

/-- Posts a request once nothing more is awaited; a narrow write or ATOM whose old granule is lost writes nothing
(R284, R287). -/
def State.tryPost (s : State) (id : Nat) : State :=
  match s.op id with
  | none => s
  | some o =>
    if o.stage != .bay && o.stage != .staged then s
    else if o.parts.any (·.bad) then
      (if o.kind = .atom then s else s.bump 0x2C00 8).finishWrite o stUncorr
    else if o.await.isEmpty && o.parts.all (fun p => p.phase == .done) then s.post id
    else s

/-! ### Routing to the bays -/

/-- Counts the Carrel hits and misses of a request, line by line (R444). -/
def State.countLines (s : State) (o : Op) (idx : List Nat) : State :=
  idx.foldl (fun t i =>
    let g := o.first + i
    if g % 2 = 1 && idx.contains (i - 1) && 0 < i then t
    else
      let (b, pc, _) := t.place (32 * g)
      t.count (o.occ (if carrelHit t.mem g then 0x000A else 0x000B) b pc g t.blockNo)) s

/-- A request other than `id` that has not posted holds a line: it is staged at the line's bay (R103), or merges into the line (R236). -/
def State.lineHeld (s : State) (id l : Nat) : Bool :=
  s.ops.any fun x => x.id != id && x.writes && x.posted.isNone && (match x.stage with
    | .staged =>
      x.parts.any (fun p => p.gran / 2 == l) ||
        (x.written.any fun i => (x.first + i) / 2 == l) && (let b := (s.place (64 * l)).1; x.bays.contains b && !x.await.contains b)
    | .bay => x.parts.any fun p => p.gran / 2 == l
    | _ => false)

/-- What a bay does with a part of a read: the value that a later post must not hide, zero under a clear valid bit, UNCORR under a lost one
(R91, R292), from the Carrel on a hit, within the limit in force there (R32), else from the stack. `quick` says that a hit is answered at
once. -/
def State.routePart (s : State) (quick realTime : Bool) (p : Part) : Part :=
  let blk := p.gran / 128
  match p.keep with
  | some (d, bad) => { p with phase := .done, data := d, bad := bad }
  | none =>
    if s.lostBlock blk then { p with phase := .done, bad := true }
    else if !s.validBit blk then { p with phase := .done, data := zeros 32 }
    else if carrelHit s.mem p.gran then
      (if quick && s.carrelMay p.bay realTime then { p with phase := .done, data := (granule s.mem p.gran).1, there := true }
        else { p with phase := .carrel, there := true })
    else { p with phase := .ingress, there := true }

/-- The part of granule `i` of a read, with what its snapshot kept of it; it waits where another request holds the line (R103). -/
def State.readPart (s : State) (o : Op) (i : Nat) : Part :=
  let g := o.first + i
  let (b, pc, loc) := s.place (32 * g)
  let p : Part :=
    { gran := g, bay := b, pc := pc, loc := loc, keep := (o.snap.find? fun e => e.1 == g).map (·.2) }
  if p.keep.isNone && o.kind == .rd && s.lineHeld o.id (g / 2) then { p with phase := .behind }
  else s.routePart o.msg.quick (clsOf o.msg == 0) p

/-- The old granule that a narrow write or an ATOM needs first; none where it is at hand (R236, R287). -/
def State.oldPart (s : State) (o : Op) (i : Nat) : Option Part :=
  let g := o.first + i
  if o.kind != .atom && (o.be i = 0xFFFFFFFF || o.fills.contains (g / 128)) then none
  else
    let p := s.readPart o i
    if p.phase == .done && !p.bad then none else some p

/-- The lines that a request merges into: those of its narrow granules, or of its operand. -/
def Op.mergeLines (o : Op) : List Nat :=
  nub ((o.written.filter fun i => o.kind = .atom || o.be i != 0xFFFFFFFF).map fun i => (o.first + i) / 2)

/-- The bays that a write changes lines in (R102). -/
def State.writeBays (s : State) (o : Op) : List Nat :=
  nub ((o.written.map fun i => (s.place (32 * (o.first + i))).1) ++
    o.fills.flatMap fun blk => (List.range 128).map fun i => (s.place (4096 * blk + 32 * i)).1)

/-- The Carrel has answered parts of a read at once: lines moved, bytes served, and earlier reads of those lines fixed. -/
def State.quickServed (s : State) (o : Op) (fresh : Part → Bool) : State :=
  let hits := o.parts.filter fun p => p.there && p.phase == .done && fresh p
  (nub (hits.map (·.bay))).foldl (fun t b =>
    let mine := hits.filter fun p => p.bay == b
    let ls := nub (mine.map fun p => p.gran / 2)
    let t := ls.foldl (fun u l => (u.fixEarlier o.sortNo l).modMem fun m => touchLine m l u.now) (t.useCarrel b ls.length)
    t.bayServes o b (32 * mine.length) (!o.parts.any fun p => p.bay == b && p.there && p.phase != .done)) s

/-- A request whose valid bits are decided goes to its bays (R102, R103, R236, R291). A write waits for a merge that holds one of its
lines. -/
def State.dispatch (s : State) (id : Nat) : State :=
  match s.op id with
  | none => s
  | some o =>
    if !o.writes then
      let idx := (List.range o.count).filter fun i => s.validBit ((o.first + i) / 128)
      let s := s.countLines o idx
      let o := { o with stage := .bay, inAt := s.now, parts := (List.range o.count).map (s.readPart o), snap := [] }
      let s := s.modOp id fun _ => o
      let s := s.quickServed o fun _ => true
      let p0 := o.parts.headD { gran := 0, bay := 31, pc := 0, loc := 0 }
      let hit := p0.phase == .done
      let s := s.stamp o.msg.port o.msg.hdr fun i =>
        { i with bay := p0.bay, pc := p0.pc, chit := hit, d3 := some s.time, d4 := if hit then some s.time else none }
      if o.parts.all (fun p => p.phase == .done) then
        (s.stamp o.msg.port o.msg.hdr fun i => { i with d5 := some s.time }).finishRead o
      else s
    else if o.written.isEmpty then s.post id
    else match (o.written.map fun i => (o.first + i) / 2).find? fun l => s.ops.any fun x =>
        x.id != id && x.writes && x.posted.isNone && x.stage == .bay && x.parts.any fun p => p.gran / 2 == l with
    | some l => s.modOp id fun x => { x with stage := .line l }
    | none =>
      let clear := o.blocks.filter fun blk => !s.validBit blk
      let lost := o.kind = .atom && s.lostBlock (o.first / 128)
      let fails := o.kind = .atom && !clear.isEmpty && (atomOn o.msg (zeros 32)).2.isNone
      match if fails || lost then none else clear.find? fun blk => s.ops.any fun x => x.id != id && x.fills.contains blk with
      | some blk => s.modOp id fun x => { x with stage := .fill blk }
      | none =>
        let o := { o with fills := if fails || lost then [] else clear }
        let narrow := o.written.filter fun i => o.be i != 0xFFFFFFFF
        let parts := if fails then [] else o.written.filterMap (s.oldPart o)
        let bays := s.writeBays o
        let home := bays.headD 31
        let one := bays.length ≤ 1 && s.spaceOk home (clsOf o.msg) (32 * o.count)
        let o := { o with stage := if one then .bay else .staged, inAt := s.now, parts := parts, bays := bays
                          await := if one then [] else bays }
        let s := s.modOp id fun _ => o
        let s := s.countLines o o.written
        let s := narrow.foldl (fun t i =>
          let (b, pc, _) := t.place (32 * (o.first + i))
          t.count (o.occ 0x000D b pc (o.first + i) t.blockNo)) s
        let s := parts.foldl (fun t p => if p.phase == .ingress && o.kind != .atom then t.bump (0x2200 + p.bay) 0x29 else t) s
        let s := s.stamp o.msg.port o.msg.hdr fun i =>
          { i with bay := home, pc := (s.place (32 * o.first)).2.1, chit := carrelHit s.mem o.first, d3 := some s.time }
        s.tryPost id

/-! ### Valid-bit decisions (R289, R292) -/

/-- Lines in the Registry's valid-bit cache, and bits in one island's cache of 64 KiB (R289). -/
abbrev regLines : Nat := 524288

/-- Decides the valid bits of a request: from its island's cache of set bits, else from the Registry; a Registry miss fetches
the line (R289). -/
def State.decideValid (s : State) (id : Nat) : State :=
  match s.op id with
  | none => s
  | some o =>
    let island := o.msg.port / 2
    let ask := o.blocks.filter fun blk => !s.shelf.isleCache.contains (island, blk)
    let s := ask.foldl (fun t blk => t.count { code := 0x0111, addr := some (t.blockNo * 2 ^ 42 + 4096 * blk) }) s
    match (ask.map (· / 512)).find? fun l => !s.shelf.regCache.contains l with
    | some l => (s.bump 0x2C00 9).modOp id fun x => { x with stage := .vbit l }
    | none =>
      let set_ := (ask.filter s.validBit).map fun blk => (island, blk)
      let mine := (set_ ++ s.shelf.isleCache.filter fun (e : Nat × Nat) => e.1 == island).take regLines
      ({ s with shelf := { s.shelf with isleCache := mine ++ s.shelf.isleCache.filter fun (e : Nat × Nat) => e.1 != island } }).dispatch id

/-- The bays that hold the two copies of a valid-bit line (R288). -/
def State.storeBays (s : State) (line : Nat) : Nat × Nat :=
  let seg := line / 8
  (seg % s.size.bays, (seg + s.size.pairOffset) % s.size.bays)

/-- The store of a bay gives a copy of a valid-bit line: not one fenced or lost, nor one found unreadable (R288, R292, R356). -/
def State.copyGood (s : State) (b line : Nat) : Bool :=
  !s.fenced b && !(s.bay b).repair.storeBad && !s.shelf.badCopies.contains (line, b)

/-- Both copies of a valid-bit line are unreadable (R292). -/
def State.loseLine (s : State) (line : Nat) : State :=
  let s := (s.bump 0x2C00 0x0A).lostData (line * 2 ^ 21)
  { s with shelf := { s.shelf with valid := s.shelf.valid.filter (fun b => b / 512 != line)
                                   isleCache := s.shelf.isleCache.filter (fun e => e.2 / 512 != line)
                                   badLines := insertN s.shelf.badLines line } }

/-- VALID_BIT_FETCH: a line of valid bits arrives from the store (R289, R292). `ok1` and `ok2` say that each copy could be
read; the store of a fenced bay cannot. -/
def execValidBitFetch (line : Nat) (ok1 ok2 : Bool) (s : State) : Out :=
  let waiting := s.ops.filter fun o => o.stage == .vbit line
  if waiting.isEmpty then .next s
  else
    let (b1, b2) := s.storeBays line
    let ok := (ok1 && s.copyGood b1 line) || (ok2 && s.copyGood b2 line)
    let s := if ok || s.shelf.badLines.contains line then s else s.loseLine line
    let s := { s with shelf := { s.shelf with regCache := (line :: s.shelf.regCache).take regLines } }
    .next (waiting.foldl (fun t o => t.decideValid o.id) s)

/-! ### Sorting (R49 to R51, R75, R76, R84) -/

/-- Requests that a change of the Shelf List holds at Sorting: their segment is among the changed ones (R84). -/
def State.heldByCommit (s : State) (o : Op) : Bool :=
  match s.shelf.commit with
  | some c => c.drain.isSome && c.changes.any fun e => e.1 == o.first / 2 ^ 19
  | none => false

/-- Check 1 of R75: alignment and span (R49), with the encodings of AOP (R46). -/
def misaligned (a : Arrival) : Bool :=
  let addr := a.hdr.addr.toNat
  if a.hdr.opcode = 0x04 then addr % atomBytes a != 0 || a.hdr.len != 0 || 6 < a.aop || !oneSegment addr a.span
  else addr % 32 != 0 || !oneSegment addr a.span

/-- What R75 looks at in a request. -/
def State.access (s : State) (o : Op) : Access75 :=
  let base : Access75 := { domain := o.msg.hdr.domain.toNat, tclass := clsOf o.msg, write := o.writes }
  match o.kind with
  | .fwrIn => { base with exempt := true }
  | .tileWr cid _ => { base with ledgerTile := (match s.con cid with | some c => c.slip.ledger | none => false) }
  | _ => base

/-- Sorting of a request (R75): held by a commit, refused, or issued with its sort time. -/
def State.sortOp (s : State) (id : Nat) : State :=
  match s.op id with
  | none => s
  | some o =>
    if misaligned o.msg then s.refuseOp o stDenied
    else if s.heldByCommit o then s.modOp id fun x => { x with stage := .sorting }
    else
      let s := s.count { code := 0x0110, port := some o.msg.port, addr := some o.msg.hdr.addr.toNat, adds := if Config.lookupMiss id then 1 else 0 }
      let st := s.check75 o.msg.hdr.addr.toNat (if o.kind = .atom then atomBytes o.msg else 32 * o.count) (s.access o)
      if st != stOk then s.refuseOp o st
      else
        let (n, s) := s.newId
        let s := s.modOp id fun x => { x with stage := .bay, sortTime := s.now, sortNo := n }
        (s.stamp o.msg.port o.msg.hdr fun i => { i with d2 := some s.time }).decideValid id

/-- A write that waits for another's fill or merge may go on (R236, R291). -/
def State.mayResume (s : State) (o : Op) : Bool :=
  match o.stage with
  | .fill blk => !s.ops.any fun x => x.id != o.id && x.fills.contains blk
  | .line l => !s.ops.any fun x => x.id != o.id && x.writes && x.posted.isNone && x.stage == .bay && x.parts.any fun p => p.gran / 2 == l
  | _ => false

/-- A part of a read waited for a line that nothing holds any more (R103). -/
def State.partFreed (s : State) (o : Op) (p : Part) : Bool := p.phase == .behind && !s.lineHeld o.id (p.gran / 2)

/-- The parts of a read that no longer wait go on, with the value that a post has left them (R103). -/
def State.unbehind (s : State) (o : Op) : State :=
  let go (p : Part) : Part := if s.partFreed o p then s.routePart o.msg.quick (clsOf o.msg == 0) p else p
  let x := { o with parts := o.parts.map go }
  let s := s.modOp o.id fun _ => x
  let s := s.quickServed x fun p => o.parts.any fun q => q.gran == p.gran && q.phase == .behind
  if x.parts.all (fun p => p.phase == .done) then
    (s.stamp x.msg.port x.msg.hdr fun i => { i with d5 := some s.time }).finishRead x
  else s

/-- Lets the requests that waited for a fill, a merge or a post go on, one after the other (R103, R236, R291). -/
def State.pump : Nat → State → State
  | 0, s => s
  | n + 1, s =>
    match s.ops.find? s.mayResume with
    | some o => State.pump n ((s.modOp o.id fun x => { x with stage := .bay }).dispatch o.id)
    | none => match s.ops.find? fun o => o.kind == .rd && o.parts.any (s.partFreed o) with
      | some o => State.pump n (s.unbehind o)
      | none => s

/-- Lets waiting requests go on, as often as there are requests and lines to wait for. -/
def State.pumpAll (s : State) : State := State.pump (3 * s.ops.length) s

/-- Starts a write of the block's own: a tile or a digest (R102, R153, R405). Its header has opcode 0, as no message has. -/
def State.ownWrite (s : State) (kind : ReqKind) (port : Nat) (addr : Nat) (cls : BitVec 6) (dom : BitVec 8)
    (data : List Byte) : State :=
  let (id, s) := s.newId
  let a : Arrival :=
    { port := port
      hdr := { tclass := cls, domain := dom, addr := BitVec.ofNat 54 addr,
               len := BitVec.ofNat 12 (data.length / 32 - 1) }
      data := data }
  (s.addOp { id := id, kind := kind, msg := a }).sortOp id

/-- STAGE_CONFIRM: a bay confirms that it holds its lines of a request; the last confirmation lets it post (R102). A bay
without space for the class confirms later (R267). -/
def execStageConfirm (op bay : Nat) (s : State) : Out :=
  match s.op op with
  | none => .next s
  | some o =>
    if o.stage != .staged || !o.await.contains bay then .next s
    else
      let n := 32 * (o.written.filter fun i => (s.place (32 * (o.first + i))).1 == bay).length
      if !s.spaceOk bay (clsOf o.msg) n then .next (s.noSpace bay (clsOf o.msg))
      else
        let s := s.modOp op fun x => { x with await := x.await.filter (· != bay) }
        .next ((s.tryPost op).pumpAll)

end Sys2Proof.Machine
end

