-- ==== Sys2Proof/Machine/Mirror.lean ====
section
/-! DEFINITION. Answers to the block's mirror copies, and their timeout (R113 to R116). -/

namespace Sys2Proof.Machine

/-- An unanswered FWR by its tag, with its partner. -/
def State.fwrByTag (s : State) (tag : BitVec 16) : Option (Partner × SentFwr) :=
  s.partners.findSome? fun p => (p.unanswered.find? fun x => x.tag == tag && x.sent).map fun x => (p, x)

/-- An FWR is answered or abandoned: the write that waits for it is answered with a status (R113, R116). -/
def State.fwrOver (s : State) (block : Nat) (x : SentFwr) (st : BitVec 4) (resync : Bool) : State :=
  let p := s.partner block
  let s := s.setPartner
    { p with unanswered := p.unanswered.filter fun y => y.tag != x.tag, needSync := p.needSync || resync }
  let s :=
    if st = stOk then s
    else
      let at_ := s.blockNo * 2 ^ 42 + hallOffset x.hdr.addr.toNat
      ((s.bump 0x2050 2).setObj 0x2050 3 at_).event 0x0060 0xFF 0 at_
  match x.op.bind s.op with
  | some o => (s.finishWrite o st).pumpAll
  | none => s

/-- Sends an FWR again, and every later unanswered one after it, under new SEQs and with SYNC on the first (R115). -/
def State.resyncFwr (s : State) (block : Nat) (x : SentFwr) : State :=
  let p := s.partner block
  let before := p.unanswered.takeWhile fun y => y.tag != x.tag
  let again := p.unanswered.dropWhile fun y => y.tag != x.tag
  let s := s.setPartner { p with unanswered := before, needSync := true }
  again.foldl (fun t y => t.sendFwr y block) s

/-- An FWR answered RETRY leaves again unchanged, at once or when a port of its pair is in service (R116). -/
def State.resendFwr (s : State) (block : Nat) (x : SentFwr) : State :=
  let p := s.partner block
  let put (y : SentFwr) : State := s.setPartner { p with unanswered := p.unanswered.map fun z => if z.tag == x.tag then y else z }
  match s.pairPort x.home with
  | some q => (put { x with sent := true, again := false, port := q }).send q x.hdr x.data
  | none => put { x with sent := false, again := true }

/-- A FWACK from a partner (R115, R116). An answer to an FWR that is not outstanding is discarded. -/
def State.fwackIn (s : State) (a : Arrival) : State :=
  match s.fwrByTag a.hdr.tag with
  | none => s
  | some (p, x) =>
    let st := a.hdr.status
    if st = stOk then s.fwrOver p.block x stOk false
    else if st = stRetry then s.resendFwr p.block x
    else if st = stTimeout then s.resyncFwr p.block x
    else if st = stDenied || st = stNomap || st = stFenced then s.fwrOver p.block x stTimeout false
    else s

/-- FWRs that waited while both ports of their pair were down are sent once one is in service (R113). -/
def State.flushFwr (s : State) : State :=
  s.partners.foldl (fun t p =>
    (p.unanswered.filter fun x => !x.sent && (t.pairPort x.home).isSome).foldl (fun u x =>
      let q := u.partner p.block
      if x.again then u.resendFwr p.block x
      else (u.setPartner { q with unanswered := q.unanswered.filter fun y => y.tag != x.tag }).sendFwr x p.block) t) s

/-- MIRROR_TIMEOUT: an FWR is abandoned at its mirror timeout (R116). -/
def execMirrorTimeout (partner : Nat) (tag : BitVec 16) (s : State) : Out :=
  match (s.partner partner).unanswered.find? fun x => x.tag == tag with
  | none => .next s
  | some x => .next ((s.reach x.deadline).fwrOver partner x stTimeout x.sent)

end Sys2Proof.Machine
end

