-- ==== Sys2Proof/Machine/Collate.lean ====
section
/-! DEFINITION. Contributions, batches, completion of tiles, Retrieval and STREAM reads, Dispatch, Postmark digests and the end of
consignments (R145 to R160, R170 to R184, R401 to R405). -/

namespace Sys2Proof.Machine

/-! ### Acceptance and batches (R146, R170, R181, R182) -/

/-- A contribution on its way into a tile: what is staged, the sticky flags a PUSH carries, whether LAST is set, and the message
to answer. -/
structure Offer where
  stg : Staged
  flags : BitVec 4 := 0
  last : Bool := false
  msg : Arrival
  deriving DecidableEq, Repr

/-- The offer of a message: a CONTRIB or a PUSH (R154). -/
def offerOf (a : Arrival) : Offer :=
  let push := a.hdr.opcode = 0x42
  let short := push && a.flags.getLsbD 3
  { stg := { data := a.payload, short := short, src := a.hdr.srcid, tag := a.hdr.tag }
    flags := if push then a.flags &&& 7 else 0, last := !push && a.hdr.last, msg := a }

/-- Applies contributions to a tile's accumulators in acceptance order (R171, R176). -/
def applyAll (p : Slip) (acc : List Acc) (l : List Staged) : List Acc × BitVec 4 :=
  l.foldl (fun r x =>
    if x.short then r
    else
      let t := applyContribution p r.1 x.data
      (t.1, r.2 ||| t.2)) (acc, 0)

/-- Counts an applied batch (R444). -/
def State.countBatch (s : State) (c : Con) (t : Tile) (l : List Staged) : State :=
  let s := s.count { code := 0x0021, bay := some t.bay, cls := some (clsOf c.msg) }
  s.count { code := 0x0022, bay := some t.bay, cls := some (clsOf c.msg)
            adds := c.slip.elems * (l.filter fun x => !x.short).length }

/-- A lane takes a tile's staged contributions as one batch (R181). -/
def State.formBatch (s : State) (cid i : Nat) : State :=
  s.modTile cid i fun t => if t.staged.isEmpty then t else { t with batches := t.batches ++ [t.staged], staged := [] }

/-- Batches of a new limit, from the contributions that a tile has staged (R181, R186). -/
def formChunks (limit : Nat) : Nat → Tile → Tile
  | 0, t => t
  | n + 1, t =>
    if limit = 0 || t.staged.length < limit then t
    else formChunks limit n { t with batches := t.batches ++ [t.staged.take limit], staged := t.staged.drop limit }

/-- A new batch limit applies from its write on: a tile that has as many contributions staged gives them to a lane (R181, R186). -/
def State.applyLimit (s : State) (limit : Nat) : State :=
  { s with cons := s.cons.map fun c =>
      { c with tiles := c.tiles.map fun t => if t.phase == .open_ then formChunks limit t.staged.length t else t } }

/-- A tile's count is reached: a lane takes what is staged, and the tile takes no more (R148, R181). -/
def State.reachCount (s : State) (cid i : Nat) : State :=
  (s.formBatch cid i).modTile cid i fun t => { t with phase := .posting, doneAt := s.now }

/-- Every batch of a tile whose count is reached has been applied: the output is converted, and the tile is posted, or completes without a
post (R148, R152, R154, R178, R183). -/
def State.convertTile (s : State) (cid i : Nat) : State :=
  match s.con cid with
  | none => s
  | some c =>
    match c.tile? i with
    | none => s
    | some t =>
      if t.phase != .posting || !t.batches.isEmpty then s
      else if t.short then s.completeTile cid i stShort
      else
        let out := outTile c.slip t.acc t.accBad
        let s := s.modTile cid i fun t => { t with out := out, acc := [] }
        if c.slip.shelving then
          s.ownWrite (.tileWr cid i) (2 * t.bay) (c.slip.tileAddr i) c.msg.hdr.tclass c.msg.hdr.domain out
        else s.completeTile cid i (tileStatus false t.flags)

/-- Answers an accepted contribution: a PUSH always, a CONTRIB when ACKREQ is set (R146). A tagged CONTRIB without an answer
is recorded (R455). -/
def State.answerAccepted (s : State) (a : Arrival) : State :=
  if a.hdr.opcode = 0x42 then s.answerWith a (answerHdr a 0x27 stOk)
  else if a.hdr.opcode != 0x61 then s
  else if a.ackreq then s.cmp a stOk
  else s.commitItem a.port a.hdr 0 none

/-- A contribution is accepted and counted (R146, R148, R170, R398, R404). -/
def State.accept (s : State) (cid i : Nat) (o : Offer) : State :=
  match s.con cid with
  | none => s
  | some c =>
    match c.tile? i with
    | none => s
    | some t =>
      let n := t.count + 1
      let hash := if c.slip.postmark.isSome then (t.hashSum + ofBytesBe (sha256 o.stg.data)) % 2 ^ 256 else 0
      let s := s.modTile cid i fun t =>
        { t with count := n, short := t.short || o.stg.short, flags := t.flags ||| o.flags, hashSum := hash
                 staged := t.staged ++ [o.stg], stagedAt := if t.staged.isEmpty then s.now else t.stagedAt }
      let s := s.record t.bay 4
        (BitVec.ofNat 64 (cid * 2 ^ 52 + c.cgen.toNat * 2 ^ 48 + o.stg.src.toNat * 2 ^ 28 + o.stg.tag.toNat * 2 ^ 12))
        (BitVec.ofNat 64 (i * 2 ^ 32 + crc32c o.stg.data)) n
      let s := s.count { code := 0x0020, bay := some t.bay, cls := some (clsOf c.msg), port := some o.msg.port
                         dom := some o.msg.hdr.domain.toNat }
      let s := s.stamp o.msg.port o.msg.hdr fun x => { x with bay := t.bay, d5 := some s.time }
      let s := s.answerAccepted o.msg
      if n = c.slip.count then s.reachCount cid i
      else if o.last || s.obj 0x2070 2 ≤ t.staged.length + 1 then s.formBatch cid i
      else s

/-! ### Replay of contributions (R401 to R403) -/

/-- The ACCEPT records of a tile in the recording, with their streams, in recorded order (R401). -/
def State.recAccepts (s : State) (cid i : Nat) : List (Nat × DayRec) :=
  match s.day.maps.find? fun m => m.1 == cid with
  | none => []
  | some (_, rcid, rgen) =>
    let l := s.day.loaded.flatMap fun e => (e.2.filter fun r =>
      r.kind == 4 && bits r.d1.toNat 63 52 == rcid && bits r.d1.toNat 51 48 == rgen && bits r.d2.toNat 63 32 == i).map fun r => (e.1, r)
    sortBy (fun x => bits x.2.d3.toNat 51 32) l

/-- Number of a record within its stream. -/
def DayRec.dseq (r : DayRec) : Nat := r.d3.toNat % 2 ^ 32

/-- Records the first divergence of a stream (R403). -/
def State.diverge (s : State) (n : Nat) (r : DayRec) : State :=
  if s.day.diverged.any fun d => d.1 == n then s
  else
    let s := (s.setObj 0x2E01 (n + 1) (2 ^ 32 + r.dseq)).setObj 0x2E00 0x0B 3
    { s with day := { s.day with diverged := s.day.diverged ++ [(n, r.dseq, r)] } }

/-- The recorded contribution that an offer matches by SRCID and TAG, among those not matched yet. -/
def State.recMatch (s : State) (cid i : Nat) (o : Offer) : Option (Nat × DayRec) :=
  (s.recAccepts cid i).find? fun x =>
    !s.day.matched.contains (x.1, x.2.dseq) && bits x.2.d1.toNat 47 28 == o.stg.src.toNat &&
    bits x.2.d1.toNat 27 12 == o.stg.tag.toNat

/-- Marks a record as matched. -/
def State.markMatched (s : State) (x : Nat × DayRec) : State :=
  { s with day := { s.day with matched := (x.1, x.2.dseq) :: s.day.matched } }

/-- Contributions that waited for an earlier record are accepted while the next one is there (R402). -/
def State.drainReplay (cid i : Nat) : Nat → State → State
  | 0, s => s
  | f + 1, s =>
    match (s.con cid).bind fun c => c.tile? i with
    | none => s
    | some t =>
      if t.phase != .open_ then s else
      let next (w : Staged × Arrival) : Bool :=
        match s.recMatch cid i { stg := w.1, msg := w.2 } with
        | some x => bits x.2.d3.toNat 51 32 == t.count + 1
        | none => false
      match t.replayWait.find? next with
      | none => s
      | some w =>
        let s := s.modTile cid i fun t => { t with replayWait := t.replayWait.erase w }
        let s := match s.recMatch cid i { stg := w.1, msg := w.2 } with | some x => s.markMatched x | none => s
        State.drainReplay cid i f (s.accept cid i { offerOf w.2 with stg := w.1 })

/-- A divergence in a tile: enforcement ends for it, and the waiting contributions are accepted in arrival order (R402). -/
def State.freeTile (s : State) (cid i : Nat) : State :=
  match (s.con cid).bind fun c => c.tile? i with
  | none => s
  | some t =>
    let s := { s with day := { s.day with freed := (cid, i) :: s.day.freed } }
    let s := s.modTile cid i fun t => { t with replayWait := [] }
    let left := (s.recAccepts cid i).filter fun x => !s.day.matched.contains (x.1, x.2.dseq)
    let s := match left with
      | x :: _ => s.diverge x.1 x.2
      | [] => s.diverge t.bay { d0 := 0, d1 := 0, d2 := 0, d3 := 0 }
    t.replayWait.foldl (fun u w =>
      if ((u.con cid).bind fun c => c.tile? i).any (fun t => t.phase == .open_) then u.accept cid i { offerOf w.2 with stg := w.1 }
      else (u.bump 0x2060 5).refuse w.2 stExcess) s

/-- A contribution that every check has let through: accepted, or held in the order of the recording (R402). -/
def State.offer (s : State) (cid i : Nat) (o : Offer) : State :=
  let mode := s.obj 0x2E00 0x0A
  let on := (s.obj 0x2E00 0x0B == 2 || s.obj 0x2E00 0x0B == 3) && s.day.maps.any (fun m => m.1 == cid)
  if !on || mode == 0 || s.day.freed.contains (cid, i) then s.accept cid i o
  else
    let good (x : Nat × DayRec) : Bool := x.2.d2.toNat % 2 ^ 32 == crc32c o.stg.data
    match s.recMatch cid i o with
    | some x =>
      if !good x then (s.freeTile cid i).accept cid i o
      else if mode == 2 then (s.markMatched x).accept cid i o
      else
        let count := (((s.con cid).bind fun c => c.tile? i).map (·.count)).getD 0
        if bits x.2.d3.toNat 51 32 == count + 1 then
          let u := (s.markMatched x).accept cid i o
          State.drainReplay cid i 1048576 u
        else s.modTile cid i fun t => { t with replayWait := t.replayWait ++ [(o.stg, o.msg)] }
    | none => (s.freeTile cid i).accept cid i o

/-! ### Checks of a contribution (R143, R146) -/

/-- The status that refuses a CONTRIB or a PUSH, or OK where it is accepted (R61, R143, R146). `i` is the tile. -/
def State.contribStatus (s : State) (a : Arrival) : BitVec 4 :=
  let push := a.hdr.opcode = 0x42
  match s.con a.hdr.cid.toNat with
  | none => stDenied
  | some c =>
    if c.state != .active || c.cgen != a.hdr.cgen then stDenied
    else if !push && (a.hdr.addr != 0 || a.hdr.tclass != c.msg.hdr.tclass || a.hdr.srcid.toNat < c.slip.srclo ||
        c.slip.srchi < a.hdr.srcid.toNat || (c.slip.cdom != 0xFF && c.slip.cdom != a.hdr.domain)) then stDenied
    else if c.slip.kind != 1 then stDenied
    else if a.span != c.slip.tileBytes && !(push && a.flags.getLsbD 3) then stDenied
    else if a.tile < c.slip.ntiles && s.fenced (s.homeOf c a.tile) then stFenced
    else if c.slip.ntiles ≤ a.tile || c.completed a.tile then stExcess
    else if (c.tile? a.tile).isNone then stRetry
    else stOk

/-- A CONTRIB or a PUSH at its home bay (R146). -/
def State.contribute (s : State) (a : Arrival) : State :=
  let st := s.contribStatus a
  if st = stOk then s.offer a.hdr.cid.toNat a.tile (offerOf a)
  else
    let s := if st = stExcess then s.bump 0x2060 5 else s
    s.refuse a st

/-! ### Reads of the block's own (R151, R160, R404) -/

/-- A granule that the block reads from a stack for itself: a read of a plain segment that missed allocates a line (R235). -/
def State.readMiss (s : State) (g : Nat) (e : SymErr × SymErr) (alloc : Option Nat) : State × List Byte × Bool :=
  match s.stackRead g e.1 e.2 false with
  | (t, some d, _) =>
    (match alloc with
      | some c =>
        let t := t.allocLine (t.gplace g).1 (g / 2) c
        t.modMem fun m => fillHalf m g d false c t.now false
      | none => t, d, false)
  | (t, none, _) => (t, zeros 32, true)

/-- A granule that the block reads from a Carrel line for itself: the line is decoded (R286), and a clean one that fails is read from the
stack. -/
def State.readHit (s : State) (c : CLine) (g : Nat) (e : SymErr × SymErr) (alloc : Option Nat) : State × List Byte × Bool :=
  let (b, pc, _) := s.gplace g
  match (s.useCarrel b).carrelDecode b pc c.data e.1 with
  | (t, true) => (t, lineHalf c g, false)
  | (t, false) =>
    let t := t.loseCarrelLine c
    if c.dirty.getLsbD (g % 2) then (t, zeros 32, true) else t.readMiss g e alloc

/-- Reads a span for the block: its bytes, UNCORR granules as zero, and whether there was one. `errs` gives the symbol errors
met at granules of the span, at the read and at the re-read; `drain` is the class whose guarantee buckets the served bytes drain (R265). -/
def State.readSpan (s : State) (addr len : Nat) (errs : List (Nat × SymErr × SymErr)) (alloc drain : Option Nat) :
    State × List Byte × Bool :=
  (List.range (len / 32)).foldl (fun (r : State × List Byte × Bool) i =>
    let (s, data, bad) := r
    let g := hallOffset addr / 32 + i
    if s.lostBlock (g / 128) then (s, data ++ zeros 32, true)
    else if !s.validBit (g / 128) then (s, data ++ zeros 32, bad)
    else
      let s := match drain with | some c => s.drainGuar (s.gplace g).1 c 32 | none => s
      let e := getA errs i ([], [])
      let (t, d, lost) := match carrelLine s.mem (g / 2) with
        | some c => if c.gvalid.getLsbD (g % 2) then s.readHit c g e alloc else s.readMiss g e alloc
        | none => s.readMiss g e alloc
      (t, data ++ d, bad || lost)) (s, [], false)

/-- What R75 looks at in a read of a consignment. -/
def Con.readAccess (c : Con) : Access75 := { domain := c.msg.hdr.domain.toNat, tclass := clsOf c.msg }

/-- Reads and digests the weight segments of a consignment, once after its admission (R404, R405). -/
def State.readWeights (s : State) (cid : Nat) : State :=
  match s.con cid with
  | none => s
  | some c =>
    match c.slip.postmark with
    | none => s
    | some (_, segs) =>
      segs.foldl (fun u a =>
        match u.con cid with
        | none => u
        | some c =>
          if u.check75 a 32 c.readAccess != stOk then u.endTiles cid stFenced
          else
            let (v, d, bad) := u.readSpan a 16777216 [] none none
            v.modCon cid fun c => { c with wd := c.wd ++ [sha256 d], weightBad := c.weightBad || bad }) s

/-- The tile digest TD (R404). -/
def tileDigest (c : Con) (t : Tile) : List Byte :=
  sha256 (toBytes 4 0x4D505A4B ++ toBytes 1 1 ++ toBytes 1 t.flags.toNat ++ zeros 2 ++ toBytes 8 t.idx ++ toBytes 4 c.slip.count ++
    toBytes 4 c.wd.length ++ sha256 c.bytes ++ c.wd.flatten ++ toBytesBe 32 t.hashSum ++ t.out)

/-- POSTMARK_DIGEST: the engine has the digest of a completed tile, and it is written (R404, R405). -/
def execPostmarkDigest (cid tile : Nat) (s : State) : Out :=
  match s.con cid with
  | none => .next s
  | some c =>
    match c.tile? tile, c.slip.postmark with
    | some t, some (base, _) =>
      if t.phase != .posted || t.digest != 1 then .next s
      else
        let s := s.modTile cid tile fun t => { t with digest := 2 }
        .next ((s.ownWrite (.digestWr cid tile) (2 * t.bay) (base + 32 * tile) c.msg.hdr.tclass c.msg.hdr.domain
          (tileDigest c t)).pumpAll)
    | _, _ => .next s

/-- RETRIEVAL_CONTRIBUTION: the block's own copy of a tile is read and enters as a contribution (R150, R151). -/
def execRetrievalContribution (cid tile : Nat) (errs : List (Nat × SymErr × SymErr)) (s : State) : Out :=
  match s.con cid with
  | none => .next s
  | some c =>
    match c.tile? tile with
    | none => .next s
    | some t =>
      if c.slip.kind != 1 || c.slip.retrieval.isNone || t.phase != .open_ || t.retrieved || s.obj 0x2E00 0x0E == 2 then .next s
      else
        let addr := c.slip.srcAddr tile
        let st := s.check75 addr c.slip.tileBytes c.readAccess
        if st != stOk then .next (s.completeTile cid tile stFenced)
        else
          let (s, d, bad) := s.readSpan addr c.slip.tileBytes errs (if (s.entry (hallOffset addr / 2 ^ 24)).pktbuf then none else some (clsOf c.msg)) none
          let s := s.modTile cid tile fun t => { t with retrieved := true, flags := if bad then t.flags ||| flUncorr else t.flags }
          let a : Arrival := { port := c.msg.port, hdr := { opcode := 0, tclass := c.msg.hdr.tclass, domain := c.msg.hdr.domain } }
          .next ((s.offer cid tile { stg := { data := d, src := 0xFFFFF }, msg := a }).pumpAll)

/-- COALESCING_WINDOW: the oldest staged contribution has waited the window (R181). -/
def execCoalescingWindow (cid tile : Nat) (s : State) : Out :=
  match (s.con cid).bind fun c => c.tile? tile with
  | none => .next s
  | some t =>
    if t.phase != .open_ || t.staged.isEmpty then .next s
    else .next ((s.reach (t.stagedAt + ceilDiv (s.obj 0x2070 1 * 2) 3)).formBatch cid tile)

/-- Lane cycles that a batch costs: 256, 128 or 64 element-contributions a cycle (R185). -/
def batchCycles (p : Slip) (l : List Staged) : Nat :=
  ceilDiv (p.elems * l.length) (if p.ledger then (if p.l128 then 64 else 128) else 256)

/-- A lane applies the oldest batch of a tile (R182): it reads the accumulator first, unless it is empty, and the last batch of a tile whose
count is reached leads to its output. `lineErr` are symbol errors in one accumulator line (R286). -/
def State.applyBatch (s : State) (cid i : Nat) (lineErr : Option (Nat × SymErr)) : State :=
  match s.con cid with
  | none => s
  | some c =>
    match c.tile? i with
    | none => s
    | some t =>
      match t.batches with
      | [] => s
      | b :: rest =>
        let a := c.slip.accBytes
        let (s, bad) : State × List Nat := match if t.applied then lineErr else none with
          | none => (s, [])
          | some (line, e) =>
            match s.carrelDecode t.bay 0 (zeros 64) e with
            | (s', true) => (s', [])
            | (s', false) => (s', (List.range c.slip.elems).filter fun k => a * k / 64 == line)
        let r := applyAll c.slip t.acc b
        let s := (s.countBatch c t b).useLanes t.bay (batchCycles c.slip b)
        let s := s.modTile cid i fun t =>
          { t with batches := rest, acc := r.1, applied := true, accBad := nub (t.accBad ++ bad)
                   flags := t.flags ||| r.2 ||| (if bad.isEmpty then 0 else flUncorr) }
        s.convertTile cid i

/-- TILE_TIMEOUT: CTIMEOUT has passed since a tile opened (R149). -/
def execTileTimeout (cid tile : Nat) (s : State) : Out :=
  match s.con cid with
  | none => .next s
  | some c =>
    match c.tile? tile with
    | none => .next s
    | some t =>
      if c.slip.kind != 1 || t.phase != .open_ || s.obj 0x2E00 0x0E == 2 then .next s
      else .next ((s.reach (t.openedAt + c.ctns)).completeTile cid tile stShort)

/-- STREAM_TILE_READ: the next tile of a STREAM consignment is read, once its meters have leased its size (R150, R160, R253). -/
def execStreamTileRead (cid : Nat) (errs : List (Nat × SymErr × SymErr)) (s : State) : Out :=
  match s.con cid with
  | none => .next s
  | some c =>
    let i := c.streamNext
    let z := c.slip.tileBytes
    let inFlight := (c.tiles.filter fun t => !t.left).length
    if c.slip.kind != 2 || c.state != .active || c.slip.ntiles ≤ i || c.slip.window ≤ inFlight || s.pausing || !s.gateOpen (clsOf c.msg) then
      .next s
    else
      let s := s.leaseStream cid
      match s.con cid with
      | none => .next s
      | some c =>
        if c.streamPast != 2 then .next s
        else
          let s := s.modCon cid fun c => { c with streamNext := i + 1, streamAsk := none, streamPast := 0 }
          let addr := c.slip.srcAddr i
          if s.check75 addr z c.readAccess != stOk then .next (s.completeTile cid i stFenced)
          else
            let (s, d, bad) := s.readSpan addr z errs none (if c.streamGreen then some (clsOf c.msg) else none)
            let fl := if bad then flUncorr else 0
            let t : Tile := { idx := i, bay := (s.place (hallOffset addr)).1, openedAt := s.now, out := d, flags := fl, slot := false }
            .next ((s.modCon cid fun c => { c with tiles := c.tiles ++ [t] }).completeTile cid i (tileStatus false fl))

/-! ### Dispatch (R152, R153, R155) -/

/-- The header and data of a copy of a completed tile (R152, R153). -/
def State.copyMsg (s : State) (c : Con) (t : Tile) (d : Dest) (tag : BitVec 16) : Hdr × List Byte :=
  let empty := t.status = stShort || t.status = stFenced
  let data := if empty then zeros 64 else padTo (ceilDiv t.out.length 64 * 64) t.out
  let len : BitVec 12 := if empty then 0 else BitVec.ofNat 12 (t.out.length / 32 - 1)
  let base : Hdr := { tclass := c.msg.hdr.tclass, domain := c.msg.hdr.domain, len := len }
  if d.push then
    let fl := if empty then t.flags ||| flShort else t.flags
    ({ base with opcode := 0x42, mclass := 2, srcid := BitVec.ofNat 20 s.blockNo, cid := d.pcid, cgen := d.pcgen, tag := tag
                 w3 := 0#60 ++ fl, w4 := BitVec.ofNat 64 ((t.idx + d.tileofs) % 2 ^ 32) }, data)
  else
    let fl := if t.status = stFenced then t.flags &&& 7 else t.flags
    ({ base with opcode := 0x62, mclass := 3, status := t.status, srcid := d.dstid, cid := BitVec.ofNat 12 c.cid, cgen := c.cgen
                 addr := BitVec.ofNat 54 (d.daddr + t.idx * c.slip.outBytes), tag := BitVec.ofNat 16 t.idx
                 w3 := 0#60 ++ fl, w4 := BitVec.ofNat 64 t.idx }, data)

/-- Sets the state of a copy, and settles its tile. -/
def State.setCopy (s : State) (cid i k : Nat) (x : CopySt) : State :=
  (s.modTile cid i fun t => { t with copies := t.copies.set k x }).tileSettle cid i

/-- A copy is dropped (R155), and with it a PUSH that still waits to leave again. -/
def State.dropCopy (s : State) (cid i k : Nat) : State :=
  let tag := ((s.con cid).bind fun c => c.tile? i).bind fun t => match t.copies.getD k .dropped with | .pushed g _ => some g | _ => none
  let s := match tag with
    | none => s
    | some g =>
      let clear (q : PortSt) : PortSt := { q with outq := q.outq.filter fun m => !(m.hdr.opcode = 0x42 && m.hdr.tag == g) }
      { s with ports := s.ports.map clear }
  ((s.bump 0x2060 7).outcome cid stTimeout).setCopy cid i k .dropped

/-- The class of the messages to a destination (R153). -/
def Dest.mclass (d : Dest) : Nat := if d.push then 2 else 3

/-- A port's normal credits of a class cover `n` flits, and no message of the class waits there before (R40). -/
def State.canLeave (s : State) (p cls n : Nat) : Bool :=
  let q := s.port p
  !q.outq.any (fun m => m.hdr.mclass.toNat == cls) && n ≤ q.credits.getD cls 0

/-- An earlier destination entry must leave first (R153): its copy goes to the same port and class, or could leave now. -/
def State.copyBehind (s : State) (c : Con) (t : Tile) (dest p : Nat) (d : Dest) : Bool :=
  (List.range dest).any fun j =>
    match c.slip.dests[j]? with
    | none => false
    | some e =>
      t.copies.getD j .dropped == .waiting &&
        (match s.pairPort e.port with
          | none => true
          | some r => (r == p && e.mclass == d.mclass) || s.canLeave r e.mclass (flitsOf (s.copyMsg c t e 0).2))

/-- DISPATCH_COPY: a copy of a completed tile leaves, once its port holds the credits, in entry order (R153). In shadow mode no PUSH
leaves (R374). -/
def execDispatchCopy (cid tile dest : Nat) (s : State) : Out :=
  match s.con cid with
  | none => .next s
  | some c =>
    match c.tile? tile, c.slip.dests[dest]? with
    | some t, some d =>
      if t.phase != .posted || !(t.digest == 0 || t.digest == 3) || t.copies.getD dest .dropped != .waiting then .next s
      else if d.push && s.obj 0x2D00 0x13 == 1 then .next ((s.bump 0x2D00 0x14).setCopy cid tile dest .sent)
      else match s.pairPort d.port with
        | none => .next (s.dropCopy cid tile dest)
        | some p =>
          let tag := s.freeTag 65536 (s.draw.1.setWidth 16)
          let (h, data) := s.copyMsg c t d tag
          if !s.canLeave p d.mclass (flitsOf data) || s.copyBehind c t dest p d then .next s
          else
            let s := s.draw.2.depart p h data false
            .next (s.setCopy cid tile dest (if d.push then .pushed tag (d.daddr / 2 ^ 42) else .sent))
    | _, _ => .next s

/-- DISPATCH_TIMEOUT: CTIMEOUT has passed since a tile completed; a copy that has not left, or a PUSH without its answer, is
dropped (R155). -/
def execDispatchTimeout (cid tile dest : Nat) (s : State) : Out :=
  match s.con cid with
  | none => .next s
  | some c =>
    match c.tile? tile with
    | none => .next s
    | some t =>
      let k := t.copies.getD dest .dropped
      if t.phase != .posted || k.over then .next s
      else .next ((s.reach (t.doneAt + c.ctns)).dropCopy cid tile dest)

/-- A PUSHACK (R155): the copy it answers, by its tag. -/
def State.pushackIn (s : State) (a : Arrival) : State :=
  let hit := s.cons.findSome? fun c => c.tiles.findSome? fun t =>
    let k := t.copies.findIdx fun x => match x with | .pushed g _ => g == a.hdr.tag | _ => false
    if k < t.copies.length then some (c, t, k) else none
  match hit with
  | none => s
  | some (c, t, k) =>
    if a.hdr.status = stOk then s.setCopy c.cid t.idx k .sent
    else if a.hdr.status = stRetry then
      match (c.slip.dests[k]?).bind fun d => (s.pairPort d.port).map fun p => (d, p) with
      | some (d, p) => let (h, data) := s.copyMsg c t d a.hdr.tag; s.send p h data
      | none => s.dropCopy c.cid t.idx k
    else s.dropCopy c.cid t.idx k

/-! ### The end of a consignment (R111, R156 to R158) -/

/-- A message names a consignment in its generation. -/
def ofConMsg (a : Arrival) (c : Con) : Bool :=
  (a.hdr.csg || a.hdr.opcode = 0x61) && a.hdr.cid.toNat == c.cid && a.hdr.cgen == c.cgen

/-- A request in flight for whose end a consignment waits: its own writes and the requests with CSG = 1 that the block has accepted. A
CONTRIB that Franking still holds is not accepted yet (R146, R157, R158). -/
def Op.ofCon (o : Op) (c : Con) : Bool :=
  match o.kind with
  | .tileWr k _ | .digestWr k _ => k == c.cid
  | .contrib => false
  | _ => ofConMsg o.msg c

/-- Nothing of a consignment is left to do (R111, R157, R158): the fences and Tally waits that name it are over too. -/
def State.conOver (s : State) (c : Con) : Bool :=
  let drain := c.state == .draining
  c.tiles.isEmpty && !s.ops.any (fun o => o.ofCon c) && !s.waits.any (fun w => ofConMsg w.msg c) &&
  !s.tal.waiters.any (fun w => ofConMsg w.msg c) &&
  (if c.slip.kind = 0 then drain
    else if c.slip.kind = 1 then c.closed.length == c.slip.ntiles
    else drain || c.streamNext == c.slip.ntiles)

/-- The held messages of a class ask its meter for a lease in its next slot, where the meter is in no slot. -/
def State.rejoin (s : State) (k : MeterKey) : State :=
  match (s.meter k).slot, s.leaseReqs k with
  | none, r :: _ => s.enterWheel k r.size
  | _, _ => s

/-- Frees a CID: the outcome is recorded, CTALLY is signalled, and a RELEASE is answered (R156 to R158, R201). Messages held for its meter ask
that of their class. -/
def State.freeCon (s : State) (c : Con) : State :=
  let p : CidPast := { cid := c.cid, cgen := c.cgen, outcome := c.outcome, kind := c.slip.kind, done := c.doneCount }
  let s := match c.slip.ctally with
    | some n => s.signalBound n c.ctBound (some c.outcome)
    | none => s
  let s : State :=
    { s with
      cons := s.cons.filter (fun x => x.cid != c.cid)
      past := (s.past.filter fun x => x.cid != c.cid) ++ [p]
      frank := { s.frank with meters := s.frank.meters.filter (fun m => m.key != .con c.cid)
                              leases := s.frank.leases.filter (fun l => l.key != .con c.cid) } }
  let s := match c.slip.ctally with | some n => if c.ctBound then s.rebind n else s | none => s
  let s := match c.slip.ttally with | some n => if c.ttBound then s.rebind n else s | none => s
  let s := s.rejoin (.cls (clsOf c.msg))
  match c.release with
  | some a => s.cmp a c.outcome
  | none => s

/-- CONSIGNMENT_COMPLETE: the last thing a consignment waited for is done (R111, R157). -/
def execConsignmentComplete (cid : Nat) (s : State) : Out :=
  match s.con cid with
  | none => .next s
  | some c => .next (if c.state != .admitting && s.conOver c then s.freeCon c else s)

end Sys2Proof.Machine
end

