-- ==== Sys2Proof/Machine/Consign.lean ====
section
/-! DEFINITION. Admission and release of consignments, fences and Tally requests at the Registry, and what a message does once
Franking has released it (R60, R73, R104, R105, R142 to R145, R158, R200, R238, R254, R273). -/

namespace Sys2Proof.Machine

/-! ### Admission (R60) -/

/-- A Tally that a slip names may be named by a domain (R200). -/
def State.tallyNamed (s : State) (n : Nat) (dom : BitVec 8) (uses : List (BitVec 2)) : Bool :=
  let t := s.tally n
  t.state = 1 && (t.owner == dom || t.owner == 0xFF) && uses.contains t.use_

/-- Step 1 of R60, after the slip's own format: R138, R142, R200, R406. -/
def State.slipRefused (s : State) (a : Arrival) (p : Slip) : Bool :=
  (s.determinism && p.collating && !p.ledger) ||
  p.dests.any (fun d => s.size.ports ≤ d.port || !bit (s.portCfg d.port) 0 || (d.push && d.daddr / 2 ^ 42 == s.blockNo)) ||
  (p.cdom != 0xFF && p.cdom != a.hdr.domain && a.hdr.domain != 0xFF) ||
  (match p.ctally with | some n => !s.tallyNamed n a.hdr.domain [2] | none => false) ||
  (match p.ttally with | some n => !s.tallyNamed n a.hdr.domain [0, 2] | none => false) ||
  (p.postmark.isSome && bit (s.obj 0x2E00 0x10) 0)

/-- Step 3 of R60: the class takes no admission, or its guaranteed rate would be exceeded (R273). -/
def State.classRefuses (s : State) (a : Arrival) (p : Slip) : Bool :=
  let ctl := s.obj (0x2600 + clsOf a) 1
  let rates := sumN ((s.cons.filter fun c => clsOf c.msg == clsOf a && c.state != .admitting).map fun c => c.slip.crate)
  !bit ctl 1 || (bit ctl 4 && (p.crate = 0 || s.obj (0x2600 + clsOf a) 6 < (p.crate + rates) * 1000))

/-- The status of a list of spans at step 4 of R60: every tile in one segment and in this block, and R75 on the first byte of
every segment touched (R142). -/
def State.spansStatus (s : State) (spans : List (Nat × Nat)) (acc : Access75) : BitVec 4 :=
  if spans.any fun x => x.1 % 32 != 0 || !oneSegment x.1 x.2 then stDenied
  else (nub (spans.map fun x => x.1 / 2 ^ 24)).foldl (fun st g => firstStatus st (s.check75 (g * 2 ^ 24) 1 acc)) stOk

/-- The address checks of step 4 (R142). The tiles of an ACCESS consignment are checked as destinations of writes where it has Shelving, and
as sources of reads where it has none (DESIGN CHOICE, log 49). -/
def State.slipStatus (s : State) (a : Arrival) (p : Slip) : BitVec 4 :=
  let n := List.range p.ntiles
  let rd : Access75 := { domain := a.hdr.domain.toNat, tclass := clsOf a }
  let tiles :=
    if p.sorting.isNone then stOk
    else
      s.spansStatus (n.map fun i => (p.tileAddr i, p.outBytes)) { rd with write := p.kind = 1 || p.shelving, ledgerTile := p.ledger }
  let src := if p.kind = 0 || p.retrieval.isNone then stOk else s.spansStatus (n.map fun i => (p.srcAddr i, p.tileBytes)) rd
  match p.postmark with
  | none => firstStatus tiles src
  | some (dg, ws) =>
    firstStatus (firstStatus tiles src)
      (firstStatus (s.spansStatus (ws.map fun w => (w, 2 ^ 24)) rd)
        (s.spansStatus (n.map fun i => (dg + 32 * i, 32)) { rd with write := true }))

/-- The entries that place a consignment's tiles: those of every group that they touch (R73). -/
def State.tileMap (s : State) (p : Slip) : List (Nat × Entry) :=
  let segs := nub ((List.range p.ntiles).map fun i => hallOffset (p.tileAddr i) / 2 ^ 24)
  let all := nub (segs.flatMap fun i => i :: s.groupSegs i)
  s.shelf.entries.filter fun e => all.contains e.1 || (all.any fun i => (s.entry i).e4 ≠ 0)

/-- The bays in which a consignment reserves space (R144). -/
def State.resBays (s : State) (c : Con) : List Nat :=
  if c.slip.kind = 1 then nub ((List.range c.slip.ntiles).map (s.homeOf c))
  else if c.slip.kind = 2 then nub (c.slip.dests.map fun d => d.port / 2)
  else []

/-- Maps the n-th admission of a run to the n-th ADMITTED record of the recording (R401). -/
def State.mapReplay (s : State) (cid : Nat) : State :=
  if s.obj 0x2E00 0x0B != 2 && s.obj 0x2E00 0x0B != 3 then s
  else
    let l := (getA s.day.loaded 24 []).filter fun r => r.kind == 3
    match l.find? fun r => r.d2.toNat % 2 ^ 32 == s.day.admissions with
    | none => s
    | some r =>
      { s with day := { s.day with maps := (cid, bits r.d1.toNat 63 52, bits r.d1.toNat 51 48) ::
                                            s.day.maps.filter fun m => m.1 != cid } }

/-- Step 5 of R60: the Tallies are bound, the consignment is active and answered; its weights are read and its first tiles open
(R61, R145, R398, R404). -/
def State.activate (s : State) (cid : Nat) : State :=
  match s.con cid with
  | none => s
  | some c =>
    let s := { s with day := { s.day with admissions := s.day.admissions + 1 } }
    let s := s.modCon cid fun c => { c with state := .active, admNo := s.day.admissions }
    let s := match c.slip.ctally with | some n => s.rebind n | none => s
    let s := match c.slip.ttally with | some n => s.rebind n | none => s
    let s := s.answerWith c.msg { answerHdr c.msg 0x22 stOk with cid := BitVec.ofNat 12 cid, cgen := c.cgen }
    let s := s.record 24 3
      (BitVec.ofNat 64 (cid * 2 ^ 52 + c.cgen.toNat * 2 ^ 48 + c.msg.hdr.srcid.toNat * 2 ^ 28 + c.msg.hdr.tag.toNat * 2 ^ 12))
      (BitVec.ofNat 64 s.day.admissions)
    let s := (s.mapReplay cid).readWeights cid
    if c.slip.kind = 1 then
      c.reserved.foldl (fun t b => (List.range c.slip.window).foldl (fun u _ => u.openNext cid b) t) s
    else s

/-- An ADMIT after Franking (R60, R61). The generation of a CID that no consignment has used is 0, so that its first is 1 (DESIGN CHOICE,
log 49). -/
def State.admitCon (s : State) (a : Arrival) (p : Slip) : State :=
  if s.slipRefused a p then s.cmp a stDenied
  else
    match firstIdx (fun i => (s.con i).isNone) 4096 0 with
    | none => s.cmp a stRetry
    | some cid =>
      if s.classRefuses a p then s.cmp a stDenied
      else
        let st := s.slipStatus a p
        if st != stOk then s.cmp a st
        else
          let old := (s.past.find? fun x => x.cid == cid).getD { cid := cid, cgen := 0 }
          let c : Con :=
            { cid := cid, state := .admitting, cgen := old.cgen + 1, msg := a, slip := p, bytes := a.payload
              ctns := if p.ctimeout = 0 then s.obj 0x2060 2 * 1000 else p.ctimeout * 100000
              map := if p.kind = 1 then s.tileMap p else [] }
          let c := { c with await := s.resBays c }
          let s := { s with cons := s.cons ++ [c] }
          if c.await.isEmpty then s.activate cid else s

/-- A reservation takes its accumulators' space out of the cache region of a bay (R238): lines that no longer fit leave, clean ones at once,
dirty ones after their write-back; none while one of those must still be written back. The lines least recently used leave (DESIGN CHOICE,
log 48). -/
def State.giveSpace (s : State) (b bytes : Nat) : State × Bool :=
  let lines := s.bayLines b
  let room := cacheLines (s.accReserved b + bytes)
  if bytes = 0 || lines.length ≤ room then (s, true)
  else
    let out := (sortBy (fun (l : CLine) => l.used) lines).take (lines.length - room)
    let s := out.foldl (fun t l => t.evictLine l.line) s
    (s, out.all fun l => l.dirty = 0)

/-- A bay can reserve what a consignment asks of it (R144, R238, R267, R268). -/
def State.canReserve (s : State) (c : Con) (b : Nat) : Bool :=
  let k := clsOf c.msg
  s.spaceOk b k c.phBytes &&
  (c.slip.kind != 1 ||
    (!s.fenced b && s.slotsUsed b + c.slip.window ≤ 8192 &&
      s.carrelUse b k + c.accBytes ≤ s.obj (0x2600 + k) 0x0E * 1048576 &&
      s.accReserved b + c.accBytes ≤ s.obj (0x2100 + b) 0x0A * 1048576))

/-- RESERVATION_CONFIRM: a bay answers a reservation; the first refusal ends the admission with RETRY, the last
confirmation activates the consignment (R60, R238). A bay that must still write back lines confirms later. `ok` is false where the bay could
not make the space ready. -/
def execReservationConfirm (cid bay : Nat) (ok : Bool) (s : State) : Out :=
  match s.con cid with
  | none => .next s
  | some c =>
    if c.state != .admitting || !c.await.contains bay then .next s
    else if !ok || !s.canReserve c bay then
      .next (({ s.noSpace bay (clsOf c.msg) with cons := s.cons.filter fun x => x.cid != cid } : State).cmp c.msg stRetry)
    else match s.giveSpace bay c.accBytes with
      | (s, false) => .next s
      | (s, true) =>
      let s := s.modCon cid fun c => { c with await := c.await.filter (· != bay), reserved := c.reserved ++ [bay] }
      .next (if (c.await.filter (· != bay)).isEmpty then s.activate cid else s)

/-- A RELEASE after Franking (R158): the tiles that have not completed, those of a STREAM that are not read included, complete SHORT. -/
def State.releaseCon (s : State) (a : Arrival) (p : Slip) : State :=
  match s.con p.rcid with
  | none => s.cmp a stDenied
  | some c =>
    if c.state != .active || c.cgen != p.rcgen || c.msg.hdr.domain != a.hdr.domain then s.cmp a stDenied
    else
      let s := s.modCon c.cid fun c => { c with state := .draining, release := some a }
      let s := if c.slip.kind = 0 then s else s.endTiles c.cid stShort
      match s.con c.cid with
      | some d => if s.conOver d then s.freeCon d else s
      | none => s

/-! ### Fences and Tallies at the Registry (R104 to R106) -/

/-- The kinds of request that a FENCE of a kind waits for (R104). -/
def fenceWaits (fk : Nat) (k : ReqKind) : Bool :=
  match k with
  | .rd => fk != 1
  | .wr => fk != 2
  | .atom => true
  | _ => false

/-- The kind of a plain request by its opcode. -/
def plainKind (a : Arrival) : ReqKind := if a.hdr.opcode = 0x01 then .rd else if a.hdr.opcode = 0x02 then .wr else .atom

/-- The requests that a FENCE covers and waits for (R104): those of its source in flight that precede it in its sequence or
came before it, and those held that are not later in its sequence. `id` is its place in arrival order. -/
def State.covers (s : State) (a : Arrival) (id fk : Nat) : List Nat :=
  let mine := s.ops.filter fun o =>
    o.msg.hdr.srcid == a.hdr.srcid && o.msg.hdr.opcode != 0 && fenceWaits fk o.kind && !(fk == 2 && o.stage == .mirror) &&
      ((a.hdr.ord && o.msg.hdr.ord) || o.id < id)
  let held := match s.seqs.find? fun q => q.key == { src := a.hdr.srcid.toNat } with
    | none => []
    | some q =>
      let plain (h : HeldReq) : Bool :=
        h.id < id && [0x01#8, 0x02#8, 0x04#8].contains h.msg.hdr.opcode && fenceWaits fk (plainKind h.msg)
      let later (h : HeldReq) : Bool := match q.next with
        | some n => (h.msg.hdr.seq - n).toNat < 63
        | none => false
      (q.held.filter fun h => plain h && !(a.hdr.ord && later h)) ++ (if a.hdr.ord then [] else q.turn.filter plain)
  mine.map (·.id) ++ held.map (·.id)

/-- A FENCE at the Registry (R104). -/
def State.fenceReq (s : State) (a : Arrival) (id : Nat) : State :=
  if a.fkind = 3 then s.cmp a stDenied else s.addWait (.fence a.fkind) a (s.covers a id a.fkind)

/-- A TLY at the Registry: one that changes a value and carries ORD waits for the writes before it (R105). -/
def State.tlyReq (s : State) (a : Arrival) : State :=
  if a.hdr.ord && topReleases a.top then
    let l := s.ops.filter fun o => o.msg.hdr.srcid == a.hdr.srcid && o.msg.hdr.ord && (o.kind == .wr || o.kind == .atom)
    s.addWait (.tly a.top) a (l.map (·.id))
  else s.tlyApply a

/-! ### After Franking -/

/-- A message that Franking has released goes on (R161). -/
def State.afterFrank (s : State) (id : Nat) : State :=
  match s.op id with
  | none => s
  | some o =>
    let s := s.stamp o.msg.port o.msg.hdr fun i => { i with d1 := some s.time }
    match o.kind with
    | .rd | .wr | .atom => s.sortOp id
    | .admitReq | .release =>
      let s := s.endOp id
      (match parseSlip o.msg with
        | none => s.cmp o.msg stDenied
        | some p => if p.kind = 3 then s.releaseCon o.msg p else s.admitCon o.msg p)
    | .fence _ => (s.endOp id).fenceReq o.msg id
    | .tly _ => (s.endOp id).tlyReq o.msg
    | .contrib =>
      let s := s.stamp o.msg.port o.msg.hdr fun i => { i with d2 := some s.time }
      (s.endOp id).contribute o.msg
    | _ => s.sortOp id

/-- A message that Franking may now release, tried again (R254). -/
def State.tryRelease (s : State) (id : Nat) : State :=
  match s.op id with
  | none => s
  | some o =>
    if o.stage != .franking then s
    else match s.franks o.msg id o.conPassed with
      | .hold cp t => t.modOp id fun x => { x with conPassed := cp }
      | .retry t => (t.refuse o.msg stRetry).endOp id
      | .pass green t =>
        let t := t.modOp id fun x => { x with stage := .sorting, green := green, inPool := false }
        let t := if o.inPool then t.freePool o.msg.port (poolOf o.msg o.msg.hdr.mclass.toNat) (flitsOf o.msg.data) else t
        t.afterFrank id

/-- Tries every held message that satisfies a test, in arrival order. -/
def State.releaseHeld (s : State) (f : Op → Bool) : State :=
  (s.ops.filter fun o => o.stage == .franking && f o).foldl (fun t o => t.tryRelease o.id) s

/-- Grants the waiting leases of a meter in request order; it returns to the wheel if some remain (R258). -/
def State.grantLeases (s : State) (k : MeterKey) : State :=
  ((s.leaseReqs k).foldl (fun t r => match r.op with
    | some id => t.tryRelease id
    | none => t.leaseStream r.cid) s).rejoin k

/-- Serves a meter of the Sorting Frame (R258). Messages that a consignment's meter lets go on ask that of their class at once (R254). -/
def State.serveMeter (s : State) (k : MeterKey) : State :=
  let cls := match k with
    | .cls _ => none
    | .con cid => (s.con cid).map fun c => clsOf c.msg
  let s := (s.leaveWheel k).grantLeases k
  match cls with
  | some c => if (s.meter (.cls c)).slot.isNone then s.grantLeases (.cls c) else s
  | none => s

/-- SORTING_FRAME_SLOT: the wheel serves its next slot, which is its virtual time meanwhile (R256 to R258). -/
def execSortingFrameSlot (s : State) : Out :=
  match s.dueMeters with
  | none => .next s
  | some (t, ks) =>
    let s := s.reach t
    let s := ks.foldl (fun u k => u.serveMeter k) { s with frank := { s.frank with serving := some t } }
    .next ({ s with frank := { s.frank with serving := none } }).pumpAll

/-- A message enters Franking (R253, R254): it passes, is refused RETRY, or is held in its class's share or in its port pool. -/
def State.enterFranking (s : State) (a : Arrival) (id : Nat) (kind : ReqKind) : State :=
  let (turn, s) := s.newId
  match s.franks a id false with
  | .retry t => t.refuse a stRetry
  | .pass green t => (t.addOp { id := id, kind := kind, msg := a, stage := .sorting, green := green, turn := turn }).afterFrank id
  | .hold cp t =>
    let c := clsOf a
    let room := t.spaceOk (a.port / 2) c (msgBytes a)
    let t := if room then t else t.noSpace (a.port / 2) c
    if !room && (kind == .rd || kind == .wr || kind == .atom) then t.refuse a stRetry
    else
      let t := (t.bump (0x2600 + c) 0x13).count { code := 0x0131, port := some a.port, cls := some c }
      t.addOp { id := id, kind := kind, msg := a, stage := .franking, conPassed := cp, heldAt := t.now, inPool := !room, turn := turn }

end Sys2Proof.Machine
end

