-- ==== Sys2Proof/Machine/Training.lean ====
section
/-! DEFINITION. Training: eyes and sweeps, calibration records, sampling points and slewing, retrain windows and runs
(R296, R321 to R334, R363 to R365). -/

namespace Sys2Proof.Machine

/-- A PC is in service (R323, R360). -/
def State.pcInService (s : State) (b pc : Nat) : Bool :=
  let r := (s.bay b).repair
  pc < 64 && !bit (r.pcsOut ||| r.withdrawn).toNat pc

/-- The PCs of a bay in service. -/
def State.pcsInService (s : State) (b : Nat) : List Nat := (List.range 64).filter (s.pcInService b)

/-- Changes the training state of a bay. -/
def State.modTrain (s : State) (b : Nat) (f : Training → Training) : State :=
  s.modBay b fun y => { y with train := f y.train }

/-! ### Eyes and sweeps (R321, R322) -/

/-- Byte lane of a lane: four of eight data lanes, and the check lanes. -/
def byteLane (lane : Nat) : Nat := lane / 8

/-- An eye (R321): its edges and centre, and whether it is closed. -/
structure Eye where
  lo : Nat
  hi : Nat
  closed : Bool
  deriving DecidableEq, Repr

def Eye.centre (e : Eye) : Nat := (e.lo + e.hi) / 2
def Eye.width (e : Eye) : Nat := e.hi - e.lo + 1

/-- Walks from tap `k` while the neighbour in a direction stays within 1/1024 of the best count. -/
def eyeEdge (c : List Nat) (cmax : Nat) (up : Bool) : Nat → Nat → Nat
  | 0, k => k
  | f + 1, k =>
    let n := if up then k + 1 else k - 1
    if (up && c.length ≤ n) || (!up && k = 0) then k
    else if cmax * 1023 ≤ c.getD n 0 * 1024 then eyeEdge c cmax up f n else k

/-- The eye of a lane from its counts at each tap (R321). -/
def findEye (minEye : Nat) (c : List Nat) : Eye :=
  let cmax := c.foldl max 0
  let k := c.findIdx (· == cmax)
  let lo := eyeEdge c cmax false c.length k
  let hi := eyeEdge c cmax true c.length k
  { lo := lo, hi := hi, closed := decide (2 * cmax < 4096) || decide (hi - lo + 1 < minEye) }

/-- What one direction of a sweep gives: the byte lanes' delays, the lanes' deskews, eye widths per byte lane, and the closed
lanes. -/
structure SweepDir where
  dly : List Nat
  dsk : List Nat
  wid : List Nat
  closed : List Nat
  deriving DecidableEq, Repr

/-- The counts of a lane; a lane without an entry received every transition at every tap. -/
def fullCounts (taps : Nat) (l : List Nat) : List Nat :=
  if l.isEmpty then List.replicate taps 4096 else (List.range taps).map fun k => l.getD k 0

/-- One direction of a sweep of a PC's 36 lanes (R321). The width of a byte lane is the least of its open lanes. -/
def sweepDir (minEye : Nat) (counts : List (List Nat)) : SweepDir :=
  let eyes := (List.range 36).map fun i => findEye minEye (fullCounts 128 (counts.getD i []))
  let shut : Eye := { lo := 0, hi := 0, closed := true }
  let eye (i : Nat) : Eye := eyes.getD i shut
  let group (j : Nat) : List Nat := (List.range 36).filter fun i => byteLane i == j && !(eye i).closed
  let least (l : List Nat) : Nat := match l with | [] => 0 | x :: xs => xs.foldl min x
  let dly := (List.range 5).map fun j => least ((group j).map fun i => (eye i).centre)
  let dsk := (List.range 36).map fun i => min 15 ((eye i).centre - dly.getD (byteLane i) 0)
  let wid := (List.range 5).map fun j => least ((group j).map fun i => (eye i).width)
  let pt (i : Nat) : Nat := dly.getD (byteLane i) 0 + dsk.getD i 0
  { dly := dly, dsk := dsk, wid := wid
    closed := (List.range 36).filter fun i => (eye i).closed || pt i < (eye i).lo || (eye i).hi < pt i }

/-- Two numbers agree within 2 taps. -/
def within2 (a b : Nat) : Bool := a ≤ b + 2 && b ≤ a + 2

/-- Two sweeps of one direction agree (R322). -/
def SweepDir.agrees (a b : SweepDir) : Bool :=
  (List.zipWith within2 a.dly b.dly).all id && (List.zipWith within2 a.dsk b.dsk).all id

/-- The accepted values of two sweeps: means, rounded down (R322). -/
def SweepDir.mean (a b : SweepDir) : SweepDir :=
  { dly := List.zipWith (fun x y => (x + y) / 2) a.dly b.dly
    dsk := List.zipWith (fun x y => (x + y) / 2) a.dsk b.dsk
    wid := List.zipWith (fun x y => (x + y) / 2) a.wid b.wid
    closed := (List.range 36).filter fun i => a.closed.contains i || b.closed.contains i }

/-- The outcome of a run: read and write values, or none where the sweeps do not agree (R322). -/
def decideRun (minEye : Nat) (r : List LaneCounts × List LaneCounts) : Option (SweepDir × SweepDir) :=
  let dir (l : List LaneCounts) (f : LaneCounts → List Nat) : SweepDir :=
    sweepDir minEye ((List.range 36).map fun i => f (l.getD i {}))
  let a := dir r.1 (fun c : LaneCounts => c.rd)
  let b := dir r.2 (fun c : LaneCounts => c.rd)
  let c := dir r.1 (fun c : LaneCounts => c.wr)
  let d := dir r.2 (fun c : LaneCounts => c.wr)
  if a.agrees b && c.agrees d then some (a.mean b, c.mean d) else none

/-! ### Calibration records (R330 to R332) -/

/-- Numbers packed into fields of `w` bits, the first lowest. -/
def packBits (w : Nat) (l : List Nat) : Nat := l.foldr (fun x v => x % 2 ^ w + v * 2 ^ w) 0

/-- The `n` fields of `w` bits of a number. -/
def unpackBits (w n v : Nat) : List Nat := (List.range n).map fun i => v / 2 ^ (w * i) % 2 ^ w

/-- A record with its KCRC (R330). -/
def sealRecord (k : Nat) : BitVec 512 := BitVec.ofNat 512 (k % 2 ^ 480 + crc32c (toBytes 60 k) * 2 ^ 480)

/-- Fields of a record (R330). -/
def recCalser (k : Nat) : Nat := bits k 479 464
def recState (k : Nat) : Nat := bits k 463 462
def recRelaxed (k : Nat) : Nat := bits k 458 458
def recOpt (k : Nat) : Nat := bits k 457 456
def recTcal (k : Nat) : Int := signed 16 (bits k 455 440)
def recWwid (k : Nat) : List Nat := unpackBits 8 5 (bits k 439 400)
def recRwid (k : Nat) : List Nat := unpackBits 8 5 (bits k 399 360)
def recWdly (k : Nat) : List Nat := unpackBits 7 5 (bits k 357 323)
def recRdly (k : Nat) : List Nat := unpackBits 7 5 (bits k 322 288)
def recDsk (k : Nat) : List Nat := unpackBits 8 36 (bits k 287 0)

/-- A record with another KSTATE. -/
def recSetState (k st : Nat) : Nat := k - recState k * 2 ^ 462 + st * 2 ^ 462

/-- The record that a run gives (R322, R330). -/
def runRecord (calser st set : Nat) (tcal : Int) (rd wr : SweepDir) : BitVec 512 :=
  sealRecord (packBits 8 (List.zipWith (fun w r => w * 16 + r) wr.dsk rd.dsk) + packBits 7 rd.dly * 2 ^ 288 +
    packBits 7 wr.dly * 2 ^ 323 + packBits 8 rd.wid * 2 ^ 360 + packBits 8 wr.wid * 2 ^ 400 + unsigned 16 tcal * 2 ^ 440 +
    set / 2 * 2 ^ 456 + set % 2 * 2 ^ 458 + st * 2 ^ 462 + calser % 65536 * 2 ^ 464)

/-- Set in use of a bay (R330, R340). -/
def State.setInUse (s : State) (b : Nat) : Nat := let y := (s.bay b).sched; y.point * 2 + b2n y.relaxed

/-- The record of a PC for a set. -/
def State.calRec (s : State) (b pc set : Nat) : Nat := (getA (s.bay b).train.records (pc * 6 + set) 0).toNat

/-- Stores a record. -/
def State.putRec (s : State) (b pc set : Nat) (k : BitVec 512) : State :=
  s.modTrain b fun t => { t with records := setA t.records (pc * 6 + set) k 0 }

/-- Sensor of a PC's quadrant: its last reading (R342). -/
def State.quadTemp (s : State) (b pc : Nat) : Int := (s.bay b).therm.readings.getD (pc / 16) 0

/-! ### Sampling points and slewing (R328, R329, R457) -/

/-- The sampling points of a record's lanes: read and write (R321). -/
def recPoints (k : Nat) : List (Nat × Nat) :=
  (List.range 36).map fun i =>
    let d := (recDsk k).getD i 0
    ((recRdly k).getD (byteLane i) 0 + d % 16, (recWdly k).getD (byteLane i) 0 + d / 16)

/-- The KIND 5 slots in force on a PC (R457). -/
def State.laneOffsets (s : State) (b pc : Nat) : List Nat :=
  (s.jSlots.filter fun e => jKind e.2 == 5 && jSel e.2 % 32 == b && bits (jSel e.2) 10 5 == pc).map (·.2)

/-- Where the lanes of a PC should sample: the record in use, with the Jostle offsets in force (R457, R460). -/
def State.goalPoints (s : State) (b pc : Nat) : List (Nat × Nat) :=
  (s.laneOffsets b pc).foldl (fun l w =>
    let off := signed 6 (jMag w % 64)
    let j := bits (jSel w) 13 11
    let shift (x : Nat) : Nat := ((x : Int) + off).toNat
    l.mapIdx fun i p => if byteLane i != j then p else if bit (jSel w) 14 then (p.1, shift p.2) else (shift p.1, p.2))
    (recPoints (s.calRec b pc (s.setInUse b)))

/-- Where the lanes of a PC sample now. -/
def State.curPoints (s : State) (b pc : Nat) : List (Nat × Nat) :=
  match (s.bay b).train.slews.find? fun x => x.pc == pc with
  | some x => x.cur
  | none => recPoints (s.calRec b pc (s.setInUse b))

/-- Lets the lanes of a PC move from `cur` to where they should sample. -/
def State.slewFrom (s : State) (b pc : Nat) (cur : List (Nat × Nat)) : State :=
  let goal := s.goalPoints b pc
  let rest (t : Training) : List Slew := t.slews.filter fun x => x.pc != pc
  s.modTrain b fun t =>
    { t with slews := if cur == goal && (s.laneOffsets b pc).isEmpty then rest t
                      else rest t ++ [{ pc := pc, cur := cur, goal := goal, at_ := s.now }] }

/-- A point moves toward its goal by at most `n` taps, and never by more than 2 (R328, R329). -/
def slewTo (n cur goal : Nat) : Nat := if cur < goal then min goal (cur + min n 2) else max goal (cur - min n 2)

/-- SLEW_STEP: every lane of a PC moves toward its accepted value (R328, R329). -/
def execSlewStep (bay pc : Nat) (s : State) : Out :=
  match (s.bay bay).train.slews.find? fun x => x.pc == pc with
  | none => .next s
  | some x =>
    if x.cur == x.goal || (s.bay bay).train.window.any (fun w => w.1 == pc) then .next s
    else
      let s := s.reach (x.at_ + s.obj 0x2B00 4 * 1000)
      let n := s.obj 0x2B00 5
      .next (s.slewFrom bay pc (List.zipWith (fun c g => (slewTo n c.1 g.1, slewTo n c.2 g.2)) x.cur x.goal))

/-! ### Runs and windows (R322, R325 to R327, R363 to R365) -/

/-- A run of a PC is in progress: it has had a window and is not decided. -/
def Training.running (t : Training) (pc : Nat) : Bool :=
  t.runs.any fun r => r.pc == pc && (r.windows != 0 || t.window.any fun w => w.1 == pc)

/-- A bay has a run in progress. -/
def Training.anyRun (t : Training) : Bool := t.runs.any fun r => t.running r.pc

/-- Demands a numeric reading of a sensor (R344). -/
def State.demand (s : State) (b sensor : Nat) : State :=
  s.modBay b fun y => { y with therm := { y.therm with converting := insertN y.therm.converting sensor } }

/-- Requests a calibration run of a PC (R325), which demands a reading of its quadrant's sensor (R344). -/
def State.requestRun (s : State) (b pc : Nat) : State :=
  let t := (s.bay b).train
  if !s.pcInService b pc || t.requested.contains pc || t.runs.any fun r => r.pc == pc then s
  else (s.modTrain b fun t => { t with requested := insertN t.requested pc }).demand b (pc / 16)

/-- Discards the runs of a bay, of one PC or of all (R326). -/
def State.dropRuns (s : State) (b : Nat) (which : Nat → Bool) : State :=
  s.modTrain b fun t =>
    { t with runs := t.runs.filter (fun r => !which r.pc), requested := t.requested.filter (fun p => !which p)
             window := if t.window.any (fun w => which w.1) then none else t.window }

/-- The PCs of the block in a retrain window now. -/
def State.windowsOpen (s : State) : Nat := ((List.range s.size.bays).filter fun b => (s.bay b).train.window.isSome).length

/-- A PC is in a retrain window. -/
def State.inWindow (s : State) (b pc : Nat) : Bool := (s.bay b).train.window.any fun w => w.1 == pc

/-- A PC wants a window that is due: its run is requested, or 64 µs have passed since its last one (R326). -/
def State.wantsWindow (s : State) (b pc : Nat) : Bool :=
  let t := (s.bay b).train
  t.requested.contains pc || t.runs.any fun r => r.pc == pc && r.nextAt ≤ s.now

/-- The owed count o of a bank (R225, R226): a forced REFpb that waits, unless the spacing of R227 holds it back, has its interval taken off
already. -/
def Bank.o (k : Bank) : Int := k.owed - b2n (k.force && !k.counted)

/-- A PC may be granted a window (R230, R325, R333, R363, R460): no burst, no bank that owes more than 5, no shift, no fence, no offset.
A pending shift lets only a run in progress go on. -/
def State.mayRetrain (s : State) (b pc : Nat) : Bool :=
  let y := s.bay b
  s.pcInService b pc && s.wantsWindow b pc && y.train.window.isNone &&
  (y.sched.shift == .none || (y.sched.shift == .awaiting && y.train.running pc)) && (!y.sched.swapWanted || y.train.running pc) &&
  y.repair.fence == 0 && (s.laneOffsets b pc).isEmpty &&
  !(y.sched.pcs.any fun p => p.pc == pc && p.burst) && !(y.sched.banks.any fun k => k.pc == pc && 5 < k.o)

/-- Spare lanes free for a PC (R296). -/
def State.sparesFree (s : State) (b pc : Nat) : Nat := (s.bay b).train.spares - (s.lanes b pc).used

/-- Remaps erased lanes of a PC to free spare lanes (R296). -/
def State.remap (s : State) (b pc : Nat) : State :=
  let x := s.lanes b pc
  let moved := x.erased.take (s.sparesFree b pc)
  if moved.isEmpty then s
  else s.setLanes b { x with erased := x.erased.drop moved.length, used := x.used + moved.length
                             remapped := moved.foldl (fun m l => m ||| 2 ^ l) x.remapped }

/-- The limit on the owed counts of a PC's banks (R226). -/
def State.owedLimit (s : State) (b pc : Nat) : Int :=
  if (s.bay b).sched.pcs.any fun p => p.pc == pc && p.burst then s.obj (0x2100 + b) 6 else 2

/-- Banks of a PC whose owed count is above the limit in force are refreshed by force until it is not (R226, R229, R230). -/
def State.forceOver (s : State) (b pc : Nat) : State :=
  let lim := s.owedLimit b pc
  let go (k : Bank) : Bank := if k.pc == pc && lim < k.o then { k with force := true, counted := k.counted || !k.force } else k
  s.modBay b fun y => { y with sched := { y.sched with banks := y.sched.banks.map go } }

/-- The window of a PC closes: refreshes owed in it are repaid, and reads that waited stand as if they had entered their queues now
(R230, R364). -/
def State.endWindow (s : State) (b pc : Nat) : State :=
  let go (q : BankReq) : BankReq := if q.pc == pc && !q.write then { q with at_ := s.now, aged := false } else q
  (s.modBay b fun y =>
    { y with train := { y.train with window := none }
             sched := { y.sched with queue := y.sched.queue.map go } }).forceOver b pc

/-- RETRAIN_WINDOW_OPEN: the Registry grants a window, in ascending bay number from the bay after the last (R363, R326). -/
def execRetrainWindowOpen (bay pc : Nat) (s : State) : Out :=
  let due := match (s.bay bay).train.runs.find? fun r => r.pc == pc with
    | some r => r.nextAt
    | none => s.now
  let u := s.reach due
  let order := (List.range s.size.bays).map fun i => (u.twins.nextGrant + i) % s.size.bays
  let first := order.find? fun b => (List.range 64).any (u.mayRetrain b)
  if !u.mayRetrain bay pc || 4 ≤ u.windowsOpen || first != some bay then .next s
  else
    let u := u.modBay bay fun y =>
      let t := y.train
      let runs := if t.runs.any fun r => r.pc == pc then t.runs else t.runs ++ [{ pc := pc, began := u.now }]
      let runs := runs.map fun r => if r.pc == pc then { r with nextAt := u.now + 64000 } else r
      let banks := y.sched.banks.map fun k => if k.pc == pc && k.row.isSome then { k with row := none, pre := some y.sched.cycle } else k
      { y with train := { t with window := some (pc, u.now), runs := runs, requested := t.requested.filter (· != pc) }
               sched := { y.sched with banks := banks } }
    let u := { u with twins := { u.twins with nextGrant := (bay + 1) % s.size.bays } }
    .next (((u.remap bay pc).count { code := 0x000F, bay := some bay, pc := some pc, origin := 1 }).markTiming)

/-- A run is accepted (R322, R326, R328): the record of the set in use holds the new values and the lanes slew to them. -/
def State.acceptRun (s : State) (b pc : Nat) (rd wr : SweepDir) : State :=
  let cur := s.curPoints b pc
  let set := s.setInUse b
  let k := runRecord (recCalser (s.calRec b pc set) + 1) 1 set (s.quadTemp b pc) rd wr
  let s := (s.putRec b pc set k).bump (0x2200 + b) 6
  let s := s.modTrain b fun t =>
    { t with lastRun := putA t.lastRun pc s.now, eye := putA t.eye pc rd.wid, runs := t.runs.filter fun r => r.pc != pc }
  let s := (nub (rd.closed ++ wr.closed)).foldl (fun t l => t.laneFails b pc l) s
  s.slewFrom b pc cur

/-- A run is discarded for want of agreement (R322): after four in succession the PC fails retraining (R297). -/
def State.discardRun (s : State) (b pc : Nat) (r : CalRun) : State :=
  let s := s.bump (0x2200 + b) 7
  if 3 ≤ r.tries then
    (s.modTrain b fun t =>
      { t with runs := t.runs.filter fun x => x.pc != pc }).propose b pc 2
  else
    s.modTrain b fun t => { t with runs := t.runs.map fun x => if x.pc == pc then { x with windows := 0, counts := [], began := s.now, tries := r.tries + 1 } else x }

/-- The two sweeps that 256 windows measured: window k measures tap k of the first sweep, window 128 + k of the second (R326). -/
def runSweeps (counts : List (List (Nat × Nat))) : List LaneCounts × List LaneCounts :=
  let lane (l : List (List (Nat × Nat))) (i : Nat) : LaneCounts :=
    { rd := l.map fun w => (w.getD i (4096, 4096)).1, wr := l.map fun w => (w.getD i (4096, 4096)).2 }
  let all (l : List (List (Nat × Nat))) : List LaneCounts := (List.range 36).map (lane l)
  (all (counts.take 128), all (counts.drop 128))

/-- RETRAIN_WINDOW_END: a window ends after its measurement, at most 2 µs after it opened; the last one decides the run (R326,
R363). `counts` gives each lane's error-free transitions at the tap, read and write; a lane not listed received all. -/
def execRetrainWindowEnd (bay pc : Nat) (counts : List (Nat × Nat)) (s : State) : Out :=
  match (s.bay bay).train.window with
  | none => .next s
  | some (p, t0) =>
    if p != pc then .next s
    else
      let s := s.reach (t0 + 2000)
      let s := (s.endWindow bay pc).modTrain bay fun t =>
        { t with runs := t.runs.map fun r => if r.pc == pc then { r with windows := r.windows + 1, counts := r.counts ++ [counts] } else r }
      match (s.bay bay).train.runs.find? fun r => r.pc == pc with
      | none => .next s
      | some r =>
        if r.windows < 256 then .next s
        else match decideRun (s.obj 0x2B00 3) (runSweeps r.counts) with
          | some (rd, wr) => .next (s.acceptRun bay pc rd wr)
          | none => .next (s.discardRun bay pc r)

/-- A real-time request ends the window of its PC (R365): the measurement is discarded and repeated. -/
def State.cutWindow (s : State) (b pc : Nat) : State := (s.endWindow b pc).bump (0x2200 + b) 0x1E

/-- CAL_RUN_TIMEOUT: a run that has not had its 256 windows within 20 ms is discarded and requested again (R365). -/
def execCalRunTimeout (bay pc : Nat) (s : State) : Out :=
  match (s.bay bay).train.runs.find? fun r => r.pc == pc with
  | none => .next s
  | some r =>
    if !(s.bay bay).train.running pc then .next s
    else .next (((s.reach (r.began + 20000000)).dropRuns bay (· == pc)).requestRun bay pc)

/-- CAL_INTERVAL_EXPIRY: a PC's last accepted run is older than 0x2B00:02 (R325). -/
def execCalIntervalExpiry (bay pc : Nat) (s : State) : Out :=
  if !s.running || s.size.bays ≤ bay || s.fenced bay || !s.pcInService bay pc then .next s
  else .next ((s.reach (getA (s.bay bay).train.lastRun pc s.boot.t0 + s.obj 0x2B00 2 * 60000000000)).requestRun bay pc)

/-! ### Bring-up training (R323, R324) -/

/-- A closed lane found by a sweep at bring-up (R296, R323): it is erased, and remapped at once where a spare is free. False where a
third erasure would be needed. -/
def State.eraseClosed (s : State) (b pc : Nat) (closed : List Nat) : State × Bool :=
  closed.foldl (fun r lane =>
    let (t, ok) := r
    let x := t.lanes b pc
    if x.erased.contains lane then (t, ok)
    else if x.erased.length < 2 then ((t.setLanes b { x with erased := insertN x.erased lane }).remap b pc, ok)
    else (t, false)) (s, true)

/-- A PC is out of service from bring-up (R323). -/
def State.pcOut (s : State) (b pc : Nat) : State :=
  s.modBay b fun y => { y with repair := { y.repair with pcsOut := y.repair.pcsOut ||| BitVec.ofNat 64 (2 ^ pc) } }

/-- Sweeps a PC that is not live, up to four runs (R322, R323). Runs that the report does not give measured full eyes. -/
def State.sweepPc (s : State) (b pc : Nat) (rep : StepReport) : State :=
  let runs := ((rep.sweeps.find? fun x => x.bay == b && x.pc == pc).map (·.runs)).getD []
  let set := s.setInUse b
  let tries := (List.range 4).map fun k => decideRun (s.obj 0x2B00 3) (runs.getD k ([], []))
  let bad := (tries.takeWhile (·.isNone)).length
  let s := s.bump (0x2200 + b) 7 bad
  match tries.findSome? id with
  | none => s.pcOut b pc
  | some (rd, wr) =>
    match s.eraseClosed b pc (nub (rd.closed ++ wr.closed)) with
    | (t, false) => t.pcOut b pc
    | (t, true) =>
      let k := runRecord (recCalser (t.calRec b pc set) + 1) 1 set (t.quadTemp b pc) rd wr
      ((t.putRec b pc set k).bump (0x2200 + b) 6).modTrain b fun x =>
        { x with lastRun := putA x.lastRun pc t.now, eye := putA x.eye pc rd.wid }

/-- Sweeps or verifies every PC of a bay that is in service (R323, R324): false where more than 4 are out of service after it. -/
def State.sweepBay (s : State) (b : Nat) (rep : StepReport) (warm : Bool) : State × Bool :=
  let t := (s.pcsInService b).foldl (fun t pc =>
    let k := t.calRec b pc (t.setInUse b)
    if warm && recState k == 2 && !rep.verifyFail.contains (b, pc) then
      (t.putRec b pc (t.setInUse b) (sealRecord (recSetState k 1))).modTrain b fun x =>
        { x with eye := putA x.eye pc (recRwid k) }
    else t.sweepPc b pc rep) s
  (t, popcount 64 (t.bay b).repair.pcsOut.toNat ≤ 4)

/-- A calibrated Carrel's record: opaque bytes with their CRC (R331, R334). The bytes are free values. -/
def State.carrelCalibrate (s : State) (b : Nat) : State :=
  let r := (List.range 128).foldl (fun (r : List Byte × State) _ =>
    let d := r.2.draw
    (r.1 ++ toBytes 8 d.1.toNat, d.2)) ([], s)
  let body := r.1.take 1020
  let temp := (s.bay b).therm.readings.getD 4 0
  r.2.modTrain b fun t => { t with carrelRec := body ++ toBytes 4 (crc32c body), carrelTemp := temp }

end Sys2Proof.Machine
end

