-- ==== Sys2Proof/Machine/Fence.lean ====
section
/-! DEFINITION. Fences, the stopped state and the end of Jostle: what becomes of requests, tiles, commits and Tallies
(R19, R85, R89, R122 to R124, R150, R207, R367, R460). -/

namespace Sys2Proof.Machine

/-- Lets the requests go on that a commit held at Sorting (R84). -/
def State.resumeHeld (s : State) : State :=
  ((s.ops.filter fun o => o.stage == .sorting).foldl (fun t o => t.sortOp o.id) s).pumpAll

/-- A commit attempt ends without a change (R81, R84, R85): status aborted, the key invalid, held requests go on. -/
def State.abortCommit (s : State) (reason : Nat) : State :=
  let s := { s with shelf := { s.shelf with commit := none } }
  (((s.setObj 0x2400 3 6).setObj 0x2400 5 reason).setObj 0x2400 6 0).resumeHeld

/-- A commit touches a group whose set contains a bay, under the layout it leaves or the one it makes. -/
def State.commitTouches (s : State) (c : Commit) (b : Nat) : Bool :=
  c.changes.any fun x => (s.segBays x.1).contains b || (bitsSet 24 x.2.bayset).contains b ||
    (x.2.e4 ≠ 0 && (bitsSet 24 (Entry.bayset { e0 := x.2.e4 })).contains b)

/-- The burst hold of a PC begins where its queues hold no real-time request any more (R226). -/
def PcSt.noteBurst (p : PcSt) (queue : List BankReq) (till : Nat) : PcSt :=
  if p.burst && p.burstOff.isNone && !queue.any fun q => q.pc == p.pc && q.realTime then { p with burstOff := some till } else p

/-- Drops the entries of bank queues whose request is over. -/
def State.purgeQueues (s : State) : State :=
  let purge (b : Nat) (y : Bay) : Bay :=
    let q := y.sched.queue.filter fun q => q.write || s.ops.any fun o => o.id == q.op
    let till := s.now + s.obj (0x2100 + b) 8
    { y with sched := { y.sched with queue := q, pcs := y.sched.pcs.map fun p => p.noteBurst q till } }
  { s with bays := s.bays.mapIdx purge }

/-- A request past Sorting whose post has not been issued. -/
def Op.unposted (o : Op) : Bool :=
  o.posted.isNone && match o.stage with | .franking | .sorting | .mirror => false | _ => true

/-- A fence cycle for the requests that satisfy a test (R122): those posted go on as without it, the others are answered
FENCED with nothing changed. A post performs at once in the model, so that those counted at 0x2050:04 are the posted ones that the block
still holds, for their mirror copies (DESIGN CHOICE, log 50). -/
def State.overtake (s : State) (f : State → Op → Bool) : State :=
  let posted := (s.ops.filter fun o => o.posted.isSome && f s o).length
  let s := s.bump 0x2050 4 posted
  let s := (s.ops.filter fun o => o.unposted && f s o).foldl (fun t o => t.refuseOp o stFenced) s
  s.pumpAll.purgeQueues

/-- Removes the effect of every Jostle slot that satisfies a test: withheld credits return, offsets slew back (R457, R460). -/
def State.dropSlots (s : State) (gone : Nat → Nat → Bool) : State :=
  let l := s.jSlots.filter fun e => gone e.1 e.2
  let s := { s with test := { s.test with jostleEnded := s.test.jostleEnded ++ l.map (·.1) } }
  l.foldl (fun t e =>
    let w := e.2
    if jKind w = 2 then
      let p := jSel w % 64
      let vc := jSel w / 64 % 4
      let q := t.port p
      let back := sumN ((q.holds.filter fun h => h.cls == vc).map (·.withheld))
      let t := t.setPort p { q with holds := q.holds.filter fun h => h.cls != vc }
      (creditWords vc back).foldl (fun u c => u.emit (.credit p c)) t
    else if jKind w = 3 then t.modBay (jSel w % 32) fun y => { y with sched := { y.sched with ingressHold := 0 } }
    else if jKind w = 4 then
      t.modBay (jSel w % 32) fun y => { y with sched := { y.sched with banks := y.sched.banks.map fun k => { k with extra := 0 } } }
    else if jKind w = 5 then
      let b := jSel w % 32
      let pc := bits (jSel w) 10 5
      t.slewFrom b pc (t.curPoints b pc)
    else t) s

/-- Jostle ends (R460). -/
def State.endJostle (s : State) : State :=
  if s.test.jostleAt.isNone then s
  else
    let s := s.dropSlots fun _ _ => true
    { s.setObj 0x3800 1 0 with test := { s.test with jostleAt := none, jostleEnded := [], jostleGen := [] } }

/-- A slot's target lies in a bay (R460). -/
def slotInBay (b : Nat) (w : Nat) : Bool :=
  if jKind w = 1 then decide (jSel w % 512 < 192) && jSel w % 512 / 8 == b
  else (jKind w = 3 || jKind w = 4 || jKind w = 5) && jSel w % 32 == b

/-- A bay is fenced at one fence cycle, for a cause as 0x2200+n:1A codes it (R85, R89, R122, R150, R326, R367, R393, R460, R472).
A bay already fenced stays as it is. -/
def State.fenceBay (s : State) (b cause : Nat) : State :=
  if s.fenced b then s
  else
    let s := s.modBay b fun y => { y with repair := { y.repair with fence := cause } }
    let touched := match s.shelf.commit with
      | some c => c.first.isSome && s.commitTouches c b
      | none => false
    let s := s.fenceGroups b
    let s := if touched then s.abortCommit 14 else s
    let s := s.overtake fun t o => (t.opEntry o).state == 2
    let s := (s.fenceTiles b).dropRuns b fun _ => true
    let s := s.dropSlots fun _ w => slotInBay b w
    ((s.event 0x0030 b cause).markTiming).reguarantee

/-- Answers every request held for its sequence with a status. -/
def State.refuseHeld (s : State) (st : BitVec 4) : State :=
  let l := s.seqs.flatMap fun q => q.held ++ q.turn
  let s := { s with seqs := s.seqs.map fun q => { q with held := [], turn := [] } }
  (sortBy (fun h => h.id) l).foldl (fun t h =>
    ((t.refuse h.msg st).freePool h.msg.port (poolOf h.msg h.msg.hdr.mclass.toNat) (flitsOf h.msg.data)).endOp h.id) s

/-- What is left of requests that have reached their turn when some are discarded: those that keep it, those that go back to wait behind a
gap, and the SEQ that is expected again, if one is. A SYNC behind a discarded request keeps its turn (R44, R52). -/
def cutTurn (gone : List Nat) : List HeldReq → List HeldReq × List HeldReq × Option (BitVec 16)
  | [] => ([], [], none)
  | h :: hs =>
    let (turn, back, next) := cutTurn gone hs
    if gone.contains h.id then
      let pre := turn.takeWhile fun x => !x.msg.hdr.sync
      let post := turn.drop pre.length
      (post, pre ++ back, if post.isEmpty then some h.msg.hdr.seq else next)
    else (h :: turn, back, next)

/-- A sequence without the discarded requests `gone` of a port, among them those, `pooled`, that had left it for Franking but not their pool:
as if they had never arrived (R44, R52). -/
def SeqSt.without (q : SeqSt) (gone : List Nat) (pooled : List HeldReq) : SeqSt :=
  let lead := pooled.filter fun h => seqKey h.msg == q.key && q.last == some h.id
  let (turn, back, next) := cutTurn gone (lead ++ q.turn)
  { q with turn := turn, held := (q.held ++ back).filter fun h => !gone.contains h.id, next := next.orElse fun _ => q.next }

/-- What a port that leaves service takes with it (R43, R44, R203): the messages in its inbound pools, held ORD requests included, as
if they had never arrived; its credit state; and the messages that wait to leave, but for copies of Dispatch, which use the other
port of the pair. Tallies bound to it lose their owner. A port disabled at 0x2040 is taken to do the same (DEDUCED, log 27). -/
def State.dropPort (s : State) (p : Nat) : State :=
  let inPool := s.ops.filter fun o => o.inPool && o.msg.port == p
  let held := ((s.seqs.flatMap fun q => q.held ++ q.turn).filter fun h => h.msg.port == p).map (·.id)
  let pooled : List HeldReq := (inPool.filter fun o => o.msg.hdr.ord).map fun o => { id := o.id, msg := o.msg, at_ := o.heldAt }
  let seqs := s.seqs.map fun (q : SeqSt) => q.without (held ++ pooled.map (·.id)) pooled
  let s := (inPool.map (·.id) ++ held).foldl (fun t i => t.endOp i) { s with seqs := seqs }
  let q := s.port p
  let s := s.setPort p { q with
    credits := List.replicate 8 0, covered := [], free := List.replicate 8 0, outq := [], discards := [], holds := [] }
  let s := { s with test := { s.test with tagged := s.test.tagged.filter fun g => g.port != p } }
  let copies : List OutMsg := q.outq.filter fun m => m.hdr.opcode = 0x42 || m.hdr.opcode = 0x62
  let s := match s.pairPort p with
    | some r => copies.foldl (fun (t : State) (m : OutMsg) => t.send r m.hdr m.data) s
    | none => s
  let s := (nub (inPool.map fun o => clsOf o.msg)).foldl (fun t c => t.rejoin (.cls c)) s
  s.portLoss p

/-- The stopped state (R19, R122, R207, R460): every request in flight is answered FENCED unless it has posted, every waiter and
every consignment completes FENCED, and Jostle ends. -/
def State.stop (s : State) : State :=
  if s.stopped then s
  else
    let s := ({ s with boot := { s.boot with code := 0x31 }, twins := { s.twins with state := 3, rejoin := 0 } } : State).dropOut
    let s := s.endJostle
    let s := { s with shelf := { s.shelf with commit := none } }
    let s := s.fenceWaiters
    let s := s.waits.foldl (fun t w => t.refuse w.msg stFenced) { s with waits := [] }
    let s := s.cons.foldl (fun t c =>
      if c.state = .admitting then ({ t with cons := t.cons.filter fun x => x.cid != c.cid } : State).cmp c.msg stFenced
      else
        let t := (t.outcome c.cid stFenced).modCon c.cid fun x => { x with state := .draining }
        if c.slip.kind = 1 then t.endTiles c.cid stFenced else t) s
    let s := s.overtake fun _ _ => true
    let s := (s.ops.filter fun o => o.stage == .franking || o.stage == .sorting).foldl (fun t o =>
      let t := if o.inPool then t.freePool o.msg.port (poolOf o.msg o.msg.hdr.mclass.toNat) (flitsOf o.msg.data) else t
      t.refuseOp o stFenced) s
    let s := s.refuseHeld stFenced
    let s := s.cons.foldl (fun t c => match t.con c.cid with
      | some d => if t.conOver d then t.freeCon d else t
      | none => t) s
    s.event 0x0080 0xFF

end Sys2Proof.Machine
end

