-- ==== Sys2Proof/Machine/Commit.lean ====
section
/-! DEFINITION. The stage, the commit of a change of the Shelf List, and the copy of a moving group (R81 to R90). -/

namespace Sys2Proof.Machine

/-- Changes the Shelf List. -/
def State.modShelf (s : State) (f : Shelf → Shelf) : State := { s with shelf := f s.shelf }

/-- Stage status, failing index and reason (R92). -/
def State.stageStatus (s : State) (status idx reason : Nat) : State :=
  ((s.setObj 0x2400 3 status).setObj 0x2400 4 idx).setObj 0x2400 5 reason

/-- A commit is past its second key and drains. -/
def State.draining (s : State) : Bool := match s.shelf.commit with | some c => c.drain.isSome | none => false

/-- A write to the stage buffer or to 0x2400:02 invalidates the key (R81). A commit that already drains goes on (DEDUCED, log 24). -/
def State.dropKey (s : State) : State :=
  if s.draining then s else (s.modShelf fun x => { x with commit := none }).setObj 0x2400 6 0

/-- Clears the stage buffer (R81). -/
def State.stageClear (s : State) : State :=
  let t := (s.dropKey.modShelf fun x => { x with stage := [] }).setObj 0x2400 1 0
  if t.draining then t else t.stageStatus 0 0 0

/-- Validates the stage and issues a commit key (R81). -/
def State.stageValidate (s : State) : State :=
  let s := s.dropKey
  if s.draining then s
  else match s.validateStage with
    | .inl (i, why) => s.stageStatus 3 i why
    | .inr copy =>
      let (k, s) := s.draw
      ((s.stageStatus 2 0 0).setObj 0x2400 6 (k.toNat % 2 ^ 32)).modShelf fun x =>
        { x with commit := some { changes := copy, validAt := s.now } }

/-- Writes a stage record at its place in the buffer (R81). -/
def State.stageRecord (s : State) (n : Nat) (e : Entry) : State :=
  let t := s.dropKey.modShelf fun x => { x with stage := putA x.stage n e }
  let t := t.setObj 0x2400 1 t.shelf.stage.length
  if t.draining then t else t.stageStatus 1 0 0

/-- A first key write (R81): none where it is not taken. The stage is validated again against the list as it now stands
(DEDUCED from R82, log 24). -/
def State.firstKey (s : State) (key : Nat) (clerk : Bool) : Option State :=
  match s.shelf.commit with
  | none => none
  | some c =>
    if s.obj 0x2400 3 != 2 then none
    else if key != s.obj 0x2400 6 then some (s.abortCommit 10)
    else match s.validateStage with
      | .inl (_, why) => some (s.abortCommit why)
      | .inr copy =>
        some ((s.setObj 0x2400 3 4).modShelf fun x => { x with commit := some { c with changes := copy, first := some clerk } })

/-- A request sorted under a replaced entry that has not completed at its bay (R84). -/
def State.sortedUnder (c : Commit) (o : Op) : Bool :=
  (match o.stage with | .franking | .sorting | .mirror => false | _ => true) && c.changes.any fun e => e.1 == o.first / 2 ^ 19

/-- A second key write (R81, R83): none where it is not taken. During the drain one that matches changes nothing more. -/
def State.secondKey (s : State) (key : Nat) (clerk : Bool) : Option State :=
  match s.shelf.commit with
  | none => none
  | some c =>
    if s.obj 0x2400 3 != 4 then none
    else if key != s.obj 0x2400 6 then some (s.abortCommit 10)
    else if c.drain.isSome then some s
    else if clerk && c.first == some true then some ((s.abortCommit 11).hardLimit 7)
    else
      let ids := (s.ops.filter (State.sortedUnder c)).map (·.id)
      some (s.modShelf fun x => { x with commit := some { c with drain := some (s.now, ids) } })

/-- COMMIT_KEY_EXPIRY: 5 s have passed since the validation without both key writes (R81). -/
def execCommitKeyExpiry (s : State) : Out :=
  match s.shelf.commit with
  | none => .next s
  | some c => if c.drain.isSome then .next s else .next ((s.reach (c.validAt + 5000000000)).abortCommit 12)

/-- Every request that a drain waits for has completed at its bay. -/
def State.drained (s : State) (ids : List Nat) : Bool :=
  !s.ops.any fun o => ids.contains o.id && o.stage != .mirror

/-- The commit cycle (R84), with what follows for withdrawals (R360), held requests and the run (R393). -/
def State.commitCycle (s : State) (c : Commit) : State :=
  let s := (s.modShelf fun x => { x with commit := none }).applyCommit c.changes
  let s := ((s.setObj 0x2400 3 5).setObj 0x2400 5 0).setObj 0x2400 6 0
  let s := if c.changes.any fun x => x.2.state == 3 then s.markTiming else s
  s.settleWithdrawals.reguarantee.resumeHeld

/-- COMMIT_DRAIN_END: the drain has finished and the commit takes effect in one Registry cycle (R84). -/
def execCommitDrainEnd (s : State) : Out :=
  match s.shelf.commit with
  | none => .next s
  | some c =>
    match c.drain with
    | none => .next s
    | some (_, ids) => if s.drained ids then .next (s.commitCycle c) else .next s

/-- COMMIT_DRAIN_TIMEOUT: the drain has not finished within 0x2400:0E (R84). -/
def execCommitDrainTimeout (s : State) : Out :=
  match s.shelf.commit with
  | none => .next s
  | some c =>
    match c.drain with
    | none => .next s
    | some (since, ids) =>
      if s.drained ids then .next s else .next ((s.reach (since + s.obj 0x2400 0x0E * 1000)).abortCommit 13)

/-! ### Moves (R87 to R90) -/

/-- A moving group may copy its next unit: one group per bay at a time (R87). Of two that share a bay the one that has begun goes on, and of
two that have begun the one of lower index (DESIGN CHOICE, log 47). -/
def State.mayMove (s : State) (s0 : Nat) : Bool :=
  let mine := s.groupBays s0
  !(s.groups fun e => e.state == 3).any fun g =>
    g != s0 && 0 < (s.entry g).watermark && ((s.entry s0).watermark = 0 || g < s0) && (s.groupBays g).any mine.contains

/-- A granule that the copy read as uncorrectable is lost in its new place too (R90). -/
def State.moveLost (s : State) (g : Nat) : State :=
  if s.mem.marked.contains g then s.lostData (32 * g) else s.markGranule g

/-- The stack's copy of a granule, read and read once more where it does not decode. -/
def State.moveStack (s : State) (b pc g : Nat) (bad : Bool) : State :=
  if bad then ((((s.bin b pc 0).bin b pc 4).bin b pc 0).bin b pc 4).moveLost g
  else match s.stackRead g [] [] false with
    | (t, none, _) => if s.mem.marked.contains g then t.lostData (32 * g) else t
    | (t, some x, r) => if r.fixes.isEmpty then t else t.modMem fun m => stackWrite m g x

/-- The copy of one granule: from the Carrel where that has it, else from the stack, with its decode and the evidence that leaves (R90, R286,
R299). `bad` says that it read uncorrectable. What decodes with a correction is encoded anew. -/
def State.moveGranule (s : State) (bad : Bool) (g : Nat) : State :=
  let (b, pc, _) := s.gplace g
  match carrelLine s.mem (g / 2) with
  | some c =>
    if c.gvalid.getLsbD (g % 2) && !bad then s
    else if c.gvalid.getLsbD (g % 2) then
      let s := s.loseCarrelLine c
      if c.dirty.getLsbD (g % 2) then s else s.moveLost g
    else s.moveStack b pc g bad
  | none => s.moveStack b pc g bad

/-- MOVE_UNIT_COPY: the unit at WATERMARK of the group whose first segment is `first` lands in its new layout. `bad` lists the hall
granules that read uncorrectable. Data are held by hall address, so a copy moves none of them (R87, R88, R90). -/
def execMoveUnitCopy (first : Nat) (bad : List Nat) (s : State) : Out :=
  let e := s.entry first
  if e.state != 3 || (s.layout first).s0 != first || !s.mayMove first then .next s
  else
    let w := e.watermark
    let unit := s.moveUnit first w
    let cap := (s.layout first).cap
    let g0 := (first * 2 ^ 24 + w) / 32
    let gs := (List.range (unit / 32)).map (g0 + ·)
    let live := gs.filter fun g => s.validBit (g / 128) && inOldCap s (g / 128)
    let t := live.foldl (fun u g => u.moveGranule (bad.contains g) g) s
    let t := t.setWatermark first (w + unit)
    .next (if w + unit < cap then t else (t.endMove first).settleWithdrawals.reguarantee)

end Sys2Proof.Machine
end

