-- ==== Sys2Proof/Machine/Thermal.lean ====
section
/-! DEFINITION. Sensors, comparators, bands, the ladder, trips and restarts (R229, R334, R342 to R358). Temperatures are in
1/16 °C. -/

namespace Sys2Proof.Machine

/-- Changes the thermal state of a bay. -/
def State.modTherm (s : State) (b : Nat) (f : Thermal → Thermal) : State := s.modBay b fun y => { y with therm := f y.therm }

/-- The comparator byte of input `i`, coded as 0x2200+n:15: 0 to 5 for S0 to S5, 6 for the stack. -/
def Thermal.comp (t : Thermal) (i : Nat) : BitVec 8 := t.comps.getD i 0

/-- The stack's last value is stale (R345). -/
def Thermal.stackStale (t : Thermal) : Bool := t.stale.getLsbD 6

/-- The inputs that take part in the band (R345, R346). -/
def Thermal.inputs (t : Thermal) : List (BitVec 8) :=
  ((List.range 6).map t.comp) ++ if t.stackStale then [] else [t.comp 6]

/-- Some input has a bit of its comparator byte set. -/
def Thermal.anyBit (t : Thermal) (i : Nat) : Bool := t.inputs.any fun c => c.getLsbD i

/-- The band that the inputs set, as 0x2200+n:10 codes it: 0 cold, 1 B0, 2 B1, 3 B2, 4 ladder (R346). -/
def Thermal.bandOf (t : Thermal) : Nat :=
  if t.anyBit 1 then 0 else if t.anyBit 4 then 4 else if t.anyBit 3 then 3 else if t.anyBit 2 then 2 else 1

/-- The trip cause that the inputs give, as 0x2200+n:16 codes it; 0 for none (R342, R349, R354). -/
def Thermal.tripCause (t : Thermal) : Nat :=
  if !t.stackStale && (t.comp 6).getLsbD 5 then 1
  else if [0, 1, 2, 3, 5].any fun i => (t.comp i).getLsbD 5 then 2
  else if (t.comp 4).getLsbD 5 then 3
  else if t.anyBit 1 then 5
  else 0

/-- The inputs call for the stack's power-down (R356). -/
def Thermal.at120 (t : Thermal) : Bool :=
  (!t.stackStale && (t.comp 6).getLsbD 6) || [0, 1, 2, 3].any fun i => (t.comp i).getLsbD 6

/-- A bay runs: not stopped by heat or cold. -/
def Thermal.live (t : Thermal) : Bool := 1 ≤ t.thermal && t.thermal ≤ 4

/-- Refresh multiple of a band: intervals per 3.9 µs, as a power of two (R225, R346). -/
def bandStep (thermal : Nat) : Nat := if thermal ≤ 1 then 0 else if thermal = 2 then 1 else 2

/-- An owed count rescaled to another band (R229). -/
def rescale (from_ dst : Nat) (o : Int) : Int :=
  if o ≤ 0 then 0
  else if from_ ≤ dst then o * (2 ^ (dst - from_) : Nat)
  else (List.range (from_ - dst)).foldl (fun v _ => (v + 1) / 2) o

/-- tREFI in ns of a band (R224, R225). -/
def refreshInterval (thermal : Nat) : Nat := 3900 / 2 ^ bandStep thermal

/-- A bank's owed count and interval where the band changes between two refresh rates (R229, R245): with the PHY timing set the interval in
progress changes too, counted from where it began (DESIGN CHOICE, log 52), else the next one does. -/
def Bank.toBand (k : Bank) (from_ dst now : Nat) (atOnce : Bool) : Bank :=
  let o := rescale (bandStep from_) (bandStep dst) k.o
  let move (d : Nat) : Nat := max now (d + refreshInterval dst - refreshInterval from_)
  { k with owed := o + b2n (k.force && !k.counted), due := if atOnce then k.due.map move else k.due
           at9 := if 9 ≤ o then k.at9.orElse fun _ => some now else none }

/-- A bay enters a band: its refresh is rescaled, what is then owed too much is refreshed by force, and a change of its PHY timing set wants
a band swap (R229, R245, R246). -/
def State.setBand (s : State) (b band : Nat) : State :=
  let old := (s.bay b).therm.thermal
  let atOnce := decide (2 ≤ old) != decide (2 ≤ band)
  let same := bandStep old = bandStep band
  let s := s.modBay b fun y =>
    let banks := if same then y.sched.banks else y.sched.banks.map fun k => k.toBand old band s.now atOnce
    { y with
      therm := { y.therm with thermal := band }
      sched := { y.sched with banks := banks, swapWanted := y.sched.relaxed != decide (2 ≤ band)
                              refInt := if atOnce && !same then refreshInterval band else y.sched.refInt
                              maxOwed := banks.foldl (fun m k => max m k.o.toNat) y.sched.maxOwed } }
  let s := if same then s else (nub ((s.bay b).sched.banks.map (·.pc))).foldl (fun t pc => t.forceOver b pc) s
  s.markTiming.reguarantee

/-- SLOW_REQ follows the bays' SLOW bits (R350). -/
def State.slowPin (s : State) : State :=
  let on := s.bays.any fun y => y.therm.level != 0
  if s.boot.slowReq == on then s else ({ s with boot := { s.boot with slowReq := on } }).emit (.slowReq on)

/-- The hottest reading or poll of a bay. -/
def Thermal.hottest (t : Thermal) : Int := (t.readings ++ if t.stackStale then [] else [t.poll]).foldl max (-4096)

/-- The bay enters or leaves the ladder band (R350, R352). -/
def State.ladder (s : State) (b : Nat) : State :=
  let t := (s.bay b).therm
  let on := t.anyBit 4
  if on == t.inLadder then s
  else if on then
    let s := s.modTherm b fun t => { t with inLadder := true, level := max t.level 1, ladderAt := s.now }
    s.slowPin.event 0x0010 b 0 (unsigned 32 t.hottest)
  else
    let s := s.modTherm b fun t => { t with inLadder := false, level := if t.level ≤ 1 then 0 else t.level, ladderAt := s.now }
    s.slowPin

/-- The time of 10 s without a break begins or ends (R349, R355). A cold bay waits for its 0 °C comparators; COLD_RESTART brings
the news of 3 °C. -/
def State.cooling (s : State) (b : Nat) : State :=
  let t := (s.bay b).therm
  let ok := !t.live && (List.range 6).all fun i => !(t.comp i).getLsbD (if t.thermal = 0 then 1 else 3)
  if ok == (t.coolAt != 0) then s
  else s.modTherm b fun t => { t with coolAt := if ok then s.now + 10000000000 else 0 }

/-- A trip or cold stop (R349, R354): the bay is fenced, its stack and Carrel go to self-refresh, and what it was doing is
abandoned. -/
def State.trip (s : State) (b cause : Nat) : State :=
  let s := s.modBay b fun y =>
    { y with therm := { y.therm with thermal := if cause = 5 then 0 else 5, cause := cause, stale := y.therm.stale ||| 64, coolAt := 0 }
             sched := { y.sched with shift := .none, swapWanted := false }
             repair := { y.repair with trips := s.now :: y.repair.trips.filter fun t => s.now < t + 86400000000000 } }
  let s := s.dropRuns b fun _ => true
  let s := s.modTrain b fun t => { t with slews := [] }
  let s := s.bump 0x2A00 8
  let s := if cause = 5 then s else s.hardLimit 3
  ((s.event 0x0011 b cause).fenceBay b 3).markTiming

/-- STK_PWREN of a bay changes. -/
def State.stackPower (s : State) (b : Nat) (on : Bool) : State :=
  let m : BitVec 24 := BitVec.ofNat 24 (2 ^ b)
  if s.boot.pwren.getLsbD b == on then s
  else ({ s with boot := { s.boot with pwren := if on then s.boot.pwren ||| m else s.boot.pwren &&& ~~~m } }).emit (.stkPwren b on)

/-- The stack powers down at 120 °C (R356). -/
def State.powerDown (s : State) (b : Nat) : State :=
  let s := s.modTherm b fun t => { t with thermal := 6, cause := 4, stale := t.stale ||| 64, coolAt := 0 }
  let s := (s.fenceBay b 3).loseContents b
  let s := s.modBay b fun y => { y with repair := { y.repair with storeBad := true } }
  (((s.stackPower b false).bump 0x2A00 9).hardLimit 3).event 0x0013 b

/-- What follows from the thermal inputs of a bay whose stack is driven (R346, R349, R350, R354, R356). -/
def State.thermEval (s : State) (b : Nat) : State :=
  if (s.bay b).repair.state = 0 then s
  else
    let c := (s.bay b).therm.tripCause
    let s := if (s.bay b).therm.live && c ≠ 0 then s.trip b c else s
    let s := if (s.bay b).therm.at120 && (s.bay b).therm.thermal ≠ 6 then s.powerDown b else s
    let s := s.ladder b
    let t := (s.bay b).therm
    let s := if t.live && t.bandOf ≠ t.thermal then s.setBand b t.bandOf else s
    s.cooling b

/-- A bit of a byte set or cleared. -/
def setBit8 (v : BitVec 8) (i : Nat) (on : Bool) : BitVec 8 :=
  let m : BitVec 8 := BitVec.ofNat 8 (2 ^ i)
  if on then v ||| m else v &&& ~~~m

/-- A 0 °C comparator of the bay's sensors is clear (R348). -/
def Thermal.below0 (t : Thermal) : Bool := (List.range 6).any fun i => (t.comp i).getLsbD 1

/-- The refresh rate of the Carrel over that of B0: it follows the band of S4 alone (R347). -/
def Thermal.carrelRate (t : Thermal) : Nat := if (t.comp 4).getLsbD 3 then 4 else if (t.comp 4).getLsbD 2 then 2 else 1

/-- A bay that step 6 drives waits for its 0 °C comparators (R348). -/
def State.coldWait (s : State) : Bool := s.boot.code == 6 && s.bays.any fun y => y.repair.fence ≤ 2 && y.therm.below0

/-- Step 6 begins in a bay: its stack is powered (R320). -/
def State.powerUp (s : State) (b : Nat) : State :=
  (s.modBay b fun y => { y with repair := { y.repair with state := 1 } }).stackPower b true

/-- COMPARATOR_CHANGE: a comparator sets (its sensor reaches the threshold) or clears (R343). Thresholds are numbered as the bits of
0x2200+n:15; the first two are shown inverted there. S4 and S5 have none at 120 °C (R342). At step 6 a bay that waited for warmth powers its
stack, and the end of the last such wait starts that step's timeout (R348). -/
def execComparatorChange (bay sensor threshold : Nat) (set : Bool) (s : State) : Out :=
  if s.size.bays ≤ bay || 6 ≤ sensor || 7 ≤ threshold || (4 ≤ sensor && threshold = 6) then .next s
  else
    let on := if threshold ≤ 1 then !set else set
    let t := s.modTherm bay fun t => { t with comps := t.comps.set sensor (setBit8 (t.comp sensor) threshold on) }
    let t := if s.coldWait && !t.coldWait then { t with boot := { t.boot with stepAt := t.now } } else t
    let y := t.bay bay
    let t := if !t.boot.held && t.boot.code = 6 && y.repair.fence ≤ 2 && y.repair.state = 0 && !y.therm.below0 then t.powerUp bay else t
    .next (if s.boot.held then t else t.thermEval bay)

/-- The stack's thresholds in 1/16 °C (R342). -/
def stackThresholds : List Int := [-160, 0, 1360, 1520, 1680, 1760, 1920]

/-- The stack's comparator byte after a poll, with the 3 °C hysteresis (R345). -/
def pollComp (old : BitVec 8) (temp : Int) : BitVec 8 :=
  (List.range 7).foldl (fun v i =>
    let th := stackThresholds.getD i 0
    if th ≤ temp then setBit8 v i (2 ≤ i)
    else if temp ≤ th - 48 then setBit8 v i (i ≤ 1)
    else v) old

/-- Takes a poll of the stack. -/
def State.takePoll (s : State) (b : Nat) (temp : Int) : State :=
  s.modTherm b fun t => { t with poll := temp, comps := t.comps.set 6 (pollComp (t.comp 6) temp) }

/-- STACK_TEMP_POLL: every 100 µs the controller reads the stack's temperature, unless the stack is in self-refresh or off (R345). -/
def execStackTempPoll (bay : Nat) (temp : Int) (s : State) : Out :=
  let y := s.bay bay
  if s.size.bays ≤ bay || y.repair.state < 2 || !y.therm.live || y.sched.shift == .shifting || y.sched.shift == .swapping then .next s
  else
    let s := s.reach (y.therm.polledAt + 100000)
    .next (((s.takePoll bay temp).modTherm bay fun t => { t with polledAt := s.now }).thermEval bay)

/-- A calibration run is in progress on a quadrant, and its sensor's reading is stale (R327). -/
def State.quadStale (s : State) (b q : Nat) : Bool :=
  q < 4 && (s.bay b).train.runs.any fun r => r.pc / 16 == q && (s.bay b).train.running r.pc

/-- Every sensor of every bay is to be read (R344). -/
def State.readSensors (s : State) : State :=
  (List.range s.size.bays).foldl (fun t b => (List.range 6).foldl (fun u i => u.demand b i) t) s

/-- SENSOR_SCHEDULE: the Clerk's schedule, every 0x2A00:05 ms, demands a reading of every sensor (R344). -/
def execSensorSchedule (s : State) : Out :=
  if s.obj 0x2A00 5 = 0 then .next s
  else
    let s := s.reach (s.health.sensedAt + s.obj 0x2A00 5 * 1000000)
    .next ({ s with health := { s.health with sensedAt := s.now } } : State).readSensors

/-- Calibration runs that a reading triggers (R325, R334). -/
def State.tempTrigger (s : State) (b sensor : Nat) (temp : Int) : State :=
  let far (t : Int) : Bool := decide ((s.obj 0x2B00 1 * 16 : Int) < (temp - t).natAbs)
  if sensor < 4 then
    ((s.pcsInService b).filter fun pc => pc / 16 == sensor && far (recTcal (s.calRec b pc (s.setInUse b)))).foldl
      (fun t pc => t.requestRun b pc) s
  else if sensor = 4 && s.running && far (s.bay b).train.carrelTemp then s.carrelCalibrate b
  else s

/-- SENSOR_READING_DONE: a demanded conversion ends (R344). A stale reading is held and requests nothing (R325, R327). -/
def execSensorReadingDone (bay sensor : Nat) (temp : Int) (s : State) : Out :=
  if s.size.bays ≤ bay || !(s.bay bay).therm.converting.contains sensor then .next s
  else
    let t := s.modTherm bay fun t => { t with converting := t.converting.filter (· != sensor) }
    if s.quadStale bay sensor then .next t
    else
      let t := t.modTherm bay fun x => { x with readings := x.readings.set sensor temp }
      .next (if s.running && !s.fenced bay then t.tempTrigger bay sensor temp else t)

/-! ### Steps of the ladder (R351, R352) -/

/-- LADDER_STEP_DOWN: 200 µs have passed with the bay still in the ladder band. -/
def execLadderStepDown (bay : Nat) (s : State) : Out :=
  let t := (s.bay bay).therm
  if !t.inLadder || t.level = 0 || 3 ≤ t.level then .next s
  else
    let s := s.reach (t.ladderAt + 200000)
    let s := s.modTherm bay fun t => { t with level := t.level + 1, ladderAt := s.now }
    .next ((s.bump 0x2A00 7).markTiming.reguarantee)

/-- LADDER_STEP_UP: 200 µs have passed with the bay out of the ladder band; at level 0 its SLOW bit clears. -/
def execLadderStepUp (bay : Nat) (s : State) : Out :=
  let t := (s.bay bay).therm
  if t.inLadder || t.level < 2 then .next s
  else
    let s := s.reach (t.ladderAt + 200000)
    let s := s.modTherm bay fun t => { t with level := if t.level = 2 then 0 else t.level - 1, ladderAt := s.now }
    .next (s.slowPin.markTiming.reguarantee)

/-! ### Restart (R355, R356, R349) -/

/-- The reason that keeps a bay fenced after stack power-up, as R338 codes it; 0 for none (R320). -/
def stackReason (r : StepReport) (b : Nat) : Nat :=
  if r.stackDead.contains b then 1 else if r.stackBad.contains b then 2 else 0

/-- The reason that keeps a bay fenced after its Carrel's test and calibration (R334). -/
def carrelReason (r : StepReport) (b : Nat) : Nat :=
  if r.carrelDead.contains b then 4 else if r.carrelUncal.contains b then 5 else 0

/-- The Carrel paths that calibration finds closed join the erasure list, which holds 4; a fifth proposes a fence of the bay
(R286, R296, R297; DEDUCED, log 26). -/
def State.erasePaths (s : State) (b : Nat) (r : StepReport) : State :=
  let l := nub ((s.bay b).train.carrelErased ++ (r.carrelClosed.filter fun e => e.1 == b && e.2 < 72).map (·.2))
  let s := s.modTrain b fun t => { t with carrelErased := l.take 4 }
  if 4 < l.length then s.event 0x0041 b 0 (s.bay b).repair.score else s

/-- Carrel calibration of a bay by a report: 0x2200+n:0A, the erasure list and the opaque record. -/
def State.calibrateBay (s : State) (b : Nat) (r : StepReport) : State × Nat :=
  let why := carrelReason r b
  let st := if why = 4 then 2 else if why = 5 then 1 else 3
  let s := s.modBay b fun y => { y with repair := { y.repair with carrel := st } }
  (if why = 0 then (s.erasePaths b r).carrelCalibrate b else s, why)

/-- A bay that is out for good until a reset: its reason, and its thermal state by the comparators. -/
def State.stayFenced (s : State) (b why : Nat) : State :=
  s.modBay b fun y => { y with repair := { y.repair with reason := why }, therm := { y.therm with thermal := max 1 y.therm.bandOf } }

/-- tXS: from self-refresh exit to the first command, in cycles (R224). -/
def Sched.tXS (y : Sched) : Nat := if y.point = 0 then 375 else if y.point = 1 then 300 else 240

/-- A stack leaves self-refresh at an instant: no bank owes a refresh or has an open row, refresh intervals count anew from there,
commands begin tXS later, and its temperature can be read again (R224, R241, R345). -/
def State.leaveSelfRefresh (s : State) (b at_ : Nat) : State :=
  let calm (k : Bank) : Bank := { k with owed := 0, due := none, counted := false, force := false, at9 := none, row := none }
  s.modBay b fun y =>
    { y with therm := { y.therm with stale := y.therm.stale &&& 0xBF }
             sched := { y.sched with banks := y.sched.banks.map calm, refFrom := at_, refInt := refreshInterval y.therm.thermal
                                     cycle := y.sched.cycle + y.sched.tXS } }

/-- Step 9 of R304 for a bay alone, after its stack lost power: its valid-bit store is rebuilt from the copies in its pair, where that can be
read. A line whose copy there is unreadable too is lost in both (R292, R356). -/
def State.rebuildStore (s : State) (b : Nat) : State :=
  let pair := (b + s.size.pairOffset) % s.size.bays
  if s.fenced pair || (s.bay pair).repair.storeBad then s
  else
    let gone := (s.shelf.badCopies.filter fun e => e.2 == pair).map (·.1)
    let keep := s.shelf.badCopies.filter fun e => e.2 != b
    let s := (gone.filter fun l => !s.shelf.badLines.contains l).foldl State.loseLine
      { s with shelf := { s.shelf with badCopies := keep ++ gone.map fun l => (l, b) } }
    s.modBay b fun y => { y with repair := { y.repair with storeBad := false } }

/-- The steps of R355 for a tripped, cold-stopped or powered-down bay. -/
def State.restart (s : State) (b : Nat) (r : RestartReport) : State :=
  let down := (s.bay b).therm.thermal = 6
  let s := if down then s.stackPower b true else s
  if down && stackReason r.report b ≠ 0 then s.stayFenced b (stackReason r.report b)
  else
    let s := (s.leaveSelfRefresh b s.now).takePoll b r.poll
    if 1520 ≤ r.poll then (s.trip b 6).cooling b
    else
      let (s, ok) := s.sweepBay b r.report false
      if !ok then s.stayFenced b 3
      else
        let (s, why) := s.calibrateBay b r.report
        if why ≠ 0 then s.stayFenced b why
        else
          let s := if down then s.rebuildStore b else s
          let s := s.modBay b fun y =>
            { y with therm := { y.therm with thermal := max 1 y.therm.bandOf, coolAt := 0 }
                     sched := { y.sched with swapWanted := y.sched.relaxed != decide (2 ≤ y.therm.bandOf)
                                             refInt := refreshInterval (max 1 y.therm.bandOf) }
                     repair := { y.repair with fence := if y.repair.fence = 3 then 0 else y.repair.fence } }
          ((s.event 0x0012 b).reguarantee).thermEval b

/-- TRIP_RESTART: 10 s have passed with every 95 °C comparator clear (R355, R356). -/
def execTripRestart (bay : Nat) (r : RestartReport) (s : State) : Out :=
  let t := (s.bay bay).therm
  if !(t.thermal = 5 || t.thermal = 6) || t.coolAt = 0 then .next s
  else .next ((s.reach t.coolAt).restart bay r)

/-- COLD_RESTART: 10 s have passed with every sensor at 3 °C or above (R349). -/
def execColdRestart (bay : Nat) (r : RestartReport) (s : State) : Out :=
  let t := (s.bay bay).therm
  if s.size.bays ≤ bay || t.thermal != 0 || t.coolAt = 0 then .next s
  else .next ((s.reach t.coolAt).restart bay r)

end Sys2Proof.Machine
end

