-- ==== Sys2Proof/Machine/Bay.lean ====
section
/-! DEFINITION. The bay: ingress and bank queues, command selection and timing, refresh, neighbour refresh, write-backs, stack and
Carrel reads, Shelf Reading (R216 to R237, R281 to R287, R293 to R295, R364, R365, R391, R452). Cycles are controller-island cycles. -/

namespace Sys2Proof.Machine

/-- Changes the scheduling state of a bay. -/
def State.modSched (s : State) (b : Nat) (f : Sched → Sched) : State := s.modBay b fun y => { y with sched := f y.sched }

/-- A bank of a bay; one that is not listed is as after reset. -/
def Sched.bankOf (y : Sched) (pc bank : Nat) : Bank :=
  (y.banks.find? fun k => k.pc == pc && k.bank == bank).getD { pc := pc, bank := bank }

/-- Replaces a bank. -/
def Sched.putBank (y : Sched) (k : Bank) : Sched :=
  { y with banks := insertBy (fun x => x.pc * 64 + x.bank) k (y.banks.filter fun x => !(x.pc == k.pc && x.bank == k.bank)) }

/-- What command selection remembers of a PC. -/
def Sched.pcOf (y : Sched) (pc : Nat) : PcSt := (y.pcs.find? fun p => p.pc == pc).getD { pc := pc }

/-- Replaces what command selection remembers of a PC. -/
def Sched.putPc (y : Sched) (p : PcSt) : Sched := { y with pcs := insertBy (fun x => x.pc) p (y.pcs.filter fun x => x.pc != p.pc) }

/-- The entries of a bank queue, in arrival order. -/
def Sched.bankQueue (y : Sched) (pc bank : Nat) : List BankReq := y.queue.filter fun q => q.pc == pc && q.bank == bank

/-! ### Timing (R224) -/

/-- A parameter in cycles at the three operating points. -/
def atOp (y : Sched) (a b c : Nat) : Nat := if y.point = 0 then a else if y.point = 1 then b else c

/-- The parameters of R224; the relaxed sets add one cycle to RL and WL. -/
def Sched.tRCD (y : Sched) : Nat := atOp y 30 24 20
def Sched.rl (y : Sched) : Nat := atOp y 32 26 21 + b2n y.relaxed
def Sched.wl (y : Sched) : Nat := atOp y 10 8 7 + b2n y.relaxed
def Sched.tRAS (y : Sched) : Nat := atOp y 42 34 27
def Sched.tRP (y : Sched) : Nat := atOp y 30 24 20
def Sched.tRC (y : Sched) : Nat := atOp y 72 58 47
def Sched.tRRDs (_ : Sched) : Nat := 2
def Sched.tRRDl (y : Sched) : Nat := atOp y 4 4 3
def Sched.tFAW (y : Sched) : Nat := atOp y 16 13 11
def Sched.tWR (y : Sched) : Nat := atOp y 20 16 13
def Sched.tRTP (y : Sched) : Nat := atOp y 6 5 4
def Sched.tWTRs (y : Sched) : Nat := atOp y 4 4 3
def Sched.tWTRl (y : Sched) : Nat := atOp y 12 10 8
def Sched.tRTW (y : Sched) : Nat := y.rl + 3 - y.wl
def Sched.tRFC (y : Sched) : Nat := atOp y 350 280 224
def Sched.tRFM (y : Sched) : Nat := atOp y 200 160 128
def Sched.tRREFD (y : Sched) : Nat := atOp y 10 8 7
def Sched.spacing (y : Sched) : Nat := atOp y 1219 975 780

/-- At least `d` cycles have passed since an event, if there was one. -/
def since (e : Option Nat) (d n : Nat) : Bool := match e with | none => true | some x => x + d ≤ n

/-- Bank group of a bank (R224). -/
def bankGroup (bank : Nat) : Nat := bank / 4

/-- The read-write turnaround of a PC lets a column command issue at cycle `n` (R224). -/
def Sched.turned (y : Sched) (n : Nat) (q : BankReq) : Bool :=
  (y.banks.filter fun o => o.pc == q.pc).all fun o =>
    if q.write then since o.rdAt y.tRTW n
    else since o.wrAt (y.wl + 1 + if bankGroup o.bank == bankGroup q.bank then y.tWTRl else y.tWTRs) n

/-- A column command may issue to a bank at cycle `n` (R217, R224); `k.extra` is a Jostle extension (R457). -/
def Sched.colOk (y : Sched) (n : Nat) (k : Bank) (q : BankReq) : Bool :=
  k.row == some q.row && k.busy ≤ n && since k.act (y.tRCD + k.extra) n && y.turned n q &&
  (y.banks.filter fun o => o.pc == q.pc).all fun o =>
    let near := bankGroup o.bank == bankGroup q.bank
    since o.rdAt (if near then 2 else 1) n && since o.wrAt (if near then 2 else 1) n

/-- A PRE may issue to a bank. -/
def Sched.preOk (y : Sched) (n : Nat) (k : Bank) : Bool :=
  k.row.isSome && k.busy ≤ n && since k.act y.tRAS n && since k.rdAt y.tRTP n && since k.wrAt (y.wl + 1 + y.tWR) n

/-- An ACT may issue to a bank. -/
def Sched.actOk (y : Sched) (n : Nat) (k : Bank) : Bool :=
  let p := y.pcOf k.pc
  k.row.isNone && k.busy ≤ n && since k.pre (y.tRP + k.extra) n && since k.act y.tRC n &&
  p.acts.all (fun a => a.1 + (if bankGroup a.2 == bankGroup k.bank then y.tRRDl else y.tRRDs) ≤ n) &&
  (match p.acts[3]? with | some a => a.1 + y.tFAW ≤ n | none => true)

/-- A REFpb or RFMpb may issue to a bank. -/
def Sched.refOk (y : Sched) (n : Nat) (k : Bank) : Bool :=
  k.row.isNone && k.busy ≤ n && since k.pre y.tRP n &&
  (match (y.pcOf k.pc).ref_ with | some r => r.2 == k.bank || r.1 + y.tRREFD ≤ n | none => true)

/-! ### Selection (R218 to R221) -/

/-- The element with the least key; the first among equals. -/
def pick {α : Type} (key : α → Nat) : List α → Option α
  | [] => none
  | x :: xs => match pick key xs with
    | none => some x
    | some y => if key y < key x then some y else some x

/-- A request is aged (R217). -/
def State.isAged (s : State) (b : Nat) (q : BankReq) : Bool := q.aged || q.at_ + s.obj (0x2100 + b) 1 < s.now

/-- Effective priority of an entry; write-backs of the cleaner stand below every request (R237). -/
def State.entryPrio (s : State) (b : Nat) (q : BankReq) : Nat :=
  if q.cleaner then 0 else 1 + s.effPrio b q.cls q.prio q.green

/-- Arrival order; in determinism mode ties go by bank (R391). -/
def State.arrival (s : State) (q : BankReq × Nat) : Nat :=
  (q.1.at_ * 64 + if s.determinism then q.1.bank else 0) * 65536 + q.2

/-- Effective priority, then arrival. -/
def State.rankOf (s : State) (b : Nat) (q : BankReq × Nat) : Nat := (100 - s.entryPrio b q.1) * 2 ^ 120 + s.arrival q

/-- The bank's open row has served a column command. -/
def Bank.hitRow (k : Bank) : Bool :=
  match k.act with
  | none => false
  | some a => (match k.rdAt with | some r => decide (a ≤ r) | none => false) || (match k.wrAt with | some w => decide (a ≤ w) | none => false)

/-- An older request of the bank waits for another row. -/
def Sched.olderMiss (y : Sched) (k : Bank) (q : BankReq) : Bool :=
  (y.bankQueue k.pc k.bank).any fun x => some x.row != k.row && x.at_ ≤ q.at_ && x != q

/-- The bank has reached its streak limit while an older request waits (R220). -/
def State.streakStop (s : State) (b : Nat) (k : Bank) : Bool :=
  let y := (s.bay b).sched
  s.obj (0x2100 + b) 2 ≤ k.streak && (y.bankQueue k.pc k.bank).any fun x => some x.row != k.row

/-- Entries of a PC with their places in the bay's queue. -/
def Sched.pcQueue (y : Sched) (pc : Nat) : List (BankReq × Nat) := (y.queue.zipIdx).filter fun q => q.1.pc == pc

/-- The first rule that offers a candidate, and its best one. -/
def firstRule : List (Option (BankReq × Nat)) → Option (BankReq × Nat)
  | [] => none
  | some q :: _ => some q
  | none :: l => firstRule l

/-- The column command of a PC (R218, R220). -/
def State.pickColumn (s : State) (b pc : Nat) : Option BankReq :=
  let y := (s.bay b).sched
  let n := y.cycle
  let ready := (y.pcQueue pc).filter fun q => y.colOk n (y.bankOf pc q.1.bank) q.1
  let free (q : BankReq × Nat) : Bool :=
    let k := y.bankOf pc q.1.bank
    !(k.hitRow && s.streakStop b k && y.olderMiss k q.1)
  let ok := ready.filter free
  let hits := ok.filter fun q => (y.bankOf pc q.1.bank).hitRow
  (firstRule [
    pick s.arrival (ok.filter fun q => q.1.realTime),
    pick s.arrival (ok.filter fun q => s.isAged b q.1),
    if (y.pcOf pc).drain then pick (s.rankOf b) (ok.filter fun q => q.1.write) else none,
    pick (s.rankOf b) hits,
    pick (s.rankOf b) ok]).map (·.1)

/-- A row command. -/
inductive RowCmd where
  | act (bank row : Nat)
  | pre (bank : Nat)
  | ref (bank : Nat) (forced : Bool)
  | rfm (bank : Nat) (forced : Bool)
  deriving DecidableEq, Repr

/-- The row command that brings a request's row nearer: PRE of another row, or ACT. -/
def Sched.toward (y : Sched) (q : BankReq) : Option RowCmd :=
  let k := y.bankOf q.pc q.bank
  if k.row == some q.row then none
  else if k.row.isSome then (if y.preOk y.cycle k then some (.pre q.bank) else none)
  else if y.actOk y.cycle k then some (.act q.bank q.row) else none

/-- Forced refreshes of a PC (R219, R226, R227, R232): one bank at a time, spaced within a burst. -/
def Sched.forcedRow (y : Sched) (pc : Nat) : Option RowCmd :=
  let n := y.cycle
  let p := y.pcOf pc
  if n < p.forcedTill then none
  else (y.banks.filter fun k => k.pc == pc && (k.force || k.forceNeigh)).findSome? fun k =>
    if p.burst && !since k.forced y.spacing n then none
    else if k.row.isSome then (if y.preOk n k then some (.pre k.bank) else none)
    else if y.refOk n k then some (if k.force then .ref k.bank true else .rfm k.bank true)
    else none

/-- A due or pull-in refresh or a queued neighbour refresh to an idle precharged bank (R219, R225). -/
def State.idleRow (s : State) (b pc : Nat) : Option RowCmd :=
  let y := (s.bay b).sched
  let pull : Int := s.obj (0x2100 + b) 7
  let idle := y.banks.filter fun k => k.pc == pc && (y.bankQueue pc k.bank).isEmpty && y.refOk y.cycle k
  match idle.find? fun k => 0 < k.o with
  | some k => some (.ref k.bank false)
  | none =>
    match idle.find? fun k => 0 < k.neigh with
    | some k => some (.rfm k.bank false)
    | none => (idle.find? fun k => -pull < k.o).map fun k => .ref k.bank false

/-- The row command of a PC (R219). -/
def State.pickRow (s : State) (b pc : Nat) : Option RowCmd :=
  let y := (s.bay b).sched
  let l := y.pcQueue pc
  let oldest (f : BankReq → Bool) : Option RowCmd :=
    (sortBy s.arrival (l.filter fun q => f q.1 &&
      !(l.any fun o => f o.1 && o.1.bank == q.1.bank && s.arrival o < s.arrival q))).findSome? fun q => y.toward q.1
  let noHit (q : BankReq × Nat) : Bool :=
    let k := y.bankOf pc q.1.bank
    !(l.any fun o => o.1.bank == q.1.bank && k.row == some o.1.row) || s.streakStop b k
  match y.forcedRow pc with
  | some c => some c
  | none => match oldest fun q => q.realTime with
    | some c => some c
    | none => match oldest (s.isAged b) with
      | some c => some c
      | none => match (sortBy (s.rankOf b) (l.filter noHit)).findSome? fun q => y.toward q.1 with
        | some c => some c
        | none => s.idleRow b pc

/-! ### Effects of commands -/

/-- Occurrence of a PC event. -/
def pcOcc (code b pc : Nat) : Occ := { code := code, bay := some b, pc := some pc, origin := 1 }

/-- A refresh of a bank: its owed count falls by one, and a forced refresh that waits is done unless the count still exceeds the limit in
force (R225, R226, R229). -/
def State.doRef (s : State) (b pc bank : Nat) : State :=
  let lim := s.owedLimit b pc
  (s.modSched b fun y =>
    let k := y.bankOf pc bank
    let p := y.pcOf pc
    let o := k.owed - 1
    let more := k.force && decide (lim < o)
    (y.putBank { k with owed := o, force := more, counted := more, busy := y.cycle + y.tRFC, row := none
                        at9 := if o < 9 then none else k.at9 }).putPc
      { p with ref_ := some (y.cycle, bank) }).count (pcOcc 0x0006 b pc)

/-- Performs a row command (R219, R226, R227, R232, R233). -/
def State.doRow (s : State) (b pc : Nat) (c : RowCmd) : State :=
  let n := (s.bay b).sched.cycle
  match c with
  | .pre bank =>
    (s.modSched b fun y => y.putBank { y.bankOf pc bank with row := none, pre := some n }).count (pcOcc 0x0005 b pc)
  | .act bank row =>
    let slots := s.jSlots.filter fun e => jKind e.2 == 4 && jSel e.2 % 32 == b && (bit (jSel e.2) 11 || bits (jSel e.2) 10 5 == pc)
    let (s, extra) := slots.foldl (fun (r : State × Nat) e =>
      let a := r.1.jActs e.1 e.2
      (a.2, r.2 + if a.1 then jMag e.2 else 0)) (s, 0)
    let g := lfsrStep (s.bay b).sched.lfsr
    let draw := lfsrDraws (s.obj (0x2100 + b) 9) g
    (s.modSched b fun y =>
      let k := y.bankOf pc bank
      let p := y.pcOf pc
      let full := draw && 8 ≤ k.neigh
      { (y.putBank { k with row := some row, act := some n, streak := 0, extra := extra
                            neigh := if draw && !full then k.neigh + 1 else k.neigh, forceNeigh := k.forceNeigh || full }).putPc
          { p with acts := ((n, bank) :: p.acts).take 4 } with lfsr := g }).count (pcOcc 0x0004 b pc)
  | .ref bank forced =>
    let s := s.doRef b pc bank
    if !forced then s
    else
      ((s.modSched b fun y =>
        (y.putBank { y.bankOf pc bank with forced := some n }).putPc { y.pcOf pc with forcedTill := n + y.tRFC }).bump
          (0x2200 + b) 0x25).count (pcOcc 0x0007 b pc)
  | .rfm bank forced =>
    let s := ((s.modSched b fun y =>
      let k := y.bankOf pc bank
      (y.putBank { k with busy := n + y.tRFM, neigh := if forced then k.neigh else k.neigh - 1 }).putPc
        { y.pcOf pc with ref_ := some (n, bank) }).bump (0x2200 + b) 0x28).count (pcOcc 0x0008 b pc)
    if !forced then s
    else
      ((s.modSched b fun y =>
        (y.putBank { y.bankOf pc bank with forceNeigh := false, forced := some n }).putPc
          { y.pcOf pc with forcedTill := n + y.tRFM }).bump (0x2200 + b) 0x25).count (pcOcc 0x0007 b pc)

/-- One granule of a Carrel line reaches the stack; a line that was to be evicted goes with its last dirty granule (R237). -/
def writeBackHalf (m : Mem) (line half : Nat) : Mem :=
  match carrelLine m line with
  | none => m
  | some c =>
    if !c.dirty.getLsbD half then m
    else
      let g := 2 * line + half
      let m := stackWrite m g (lineHalf c g)
      let d := c.dirty &&& ~~~(if half = 0 then 1#2 else 2#2)
      if c.evict && d = 0 then dropLine m line else { m with carrel := putLine m.carrel { c with dirty := d } }

/-- A column command leaves its entry: the bank, the close predictor and the streak (R220, R222, R391). -/
def State.leaveQueue (s : State) (b : Nat) (q : BankReq) : State :=
  s.modSched b fun y =>
    let n := y.cycle
    let k := y.bankOf q.pc q.bank
    let rest := y.queue.erase q
    let others := rest.any fun x => x.pc == q.pc && x.bank == q.bank && x.row == q.row
    let miss := rest.any fun x => x.pc == q.pc && x.bank == q.bank && x.row != q.row && x.at_ ≤ q.at_
    let close := !others && (s.determinism || 2 ≤ k.ctr.toNat)
    let done := if q.write then n + y.wl + 1 + y.tWR else n + y.tRTP
    let pre := max done ((k.act.getD 0) + y.tRAS)
    let p := y.pcOf q.pc
    let us := s.now / 1000
    let p := { p with data := (putA p.data us (getA p.data us 0 + 1)).filter fun e => us ≤ e.1 + 100 }
    let p := p.noteBurst rest (s.now + s.obj (0x2100 + b) 8)
    let k := { k with rdAt := if q.write then k.rdAt else some n, wrAt := if q.write then some n else k.wrAt
                      streak := if k.hitRow && miss then k.streak + 1 else 0, lastRow := some q.row, train := true
                      row := if close then none else k.row, pre := if close then some pre else k.pre, used := n }
    { (y.putBank k).putPc p with queue := rest }

/-- Performs a column command (R218). -/
def State.doColumn (s : State) (b : Nat) (q : BankReq) : State :=
  let closes := ((s.leaveQueue b q).bay b).sched.bankOf q.pc q.bank |>.row.isNone
  let s := s.leaveQueue b q
  let s := if closes then s.count (pcOcc 0x0005 b q.pc) else s
  if q.write then
    let s := s.modMem fun m => writeBackHalf m q.op q.part
    s.count { pcOcc 0x0003 b q.pc with cls := some q.cls, addr := some (s.blockNo * 2 ^ 42 + 64 * q.op + 32 * q.part) }
  else
    match s.op q.op with
    | none => s
    | some o =>
      let g := (o.parts.map (·.gran)).getD q.part 0
      let s := s.modOp q.op fun x =>
        { x with parts := x.parts.mapIdx fun i p => if i == q.part then { p with phase := .stack } else p }
      let s := s.stamp o.msg.port o.msg.hdr fun i => { i with d4 := i.d4.orElse fun _ => some s.time }
      s.count (o.occ 0x0002 b q.pc g s.blockNo)

/-! ### Slots (R452) -/

/-- The category of a slot as an event code of R444. -/
def State.slotKind (s : State) (b pc : Nat) (c : Option BankReq) (held : Bool) : Nat :=
  let y := (s.bay b).sched
  match c with
  | some q =>
    if q.write then 0x0010
    else match s.op q.op with
      | some o => if o.kind == .wr || o.kind == .fwrIn then 0x0011 else 0x0010
      | none => 0x0010
  | none =>
    let here := y.pcQueue pc
    if here.isEmpty && !s.ops.any (fun o => o.parts.any fun p => p.bay == b && p.pc == pc && p.phase == .ingress) then 0x0012
    else if held then 0x0013
    else match pick s.arrival here with
      | none => 0x0013
      | some q =>
        let k := y.bankOf pc q.1.bank
        let turn := k.row == some q.1.row && since k.act (y.tRCD + k.extra) y.cycle && !y.turned y.cycle q.1
        if y.cycle < k.busy || (k.row.isNone && !since k.pre y.tRP y.cycle) || turn then 0x0011 else 0x0013

/-! ### BAY_COMMAND_ISSUE -/

/-- Stack commands of a bay are withheld: a shift, self-refresh, or a stack without power. -/
def State.stackHeld (s : State) (b : Nat) : Bool :=
  let y := s.bay b
  y.sched.shift == .shifting || y.sched.shift == .swapping || !y.therm.live || !s.boot.pwren.getLsbD b

/-- Write drain of a PC (R221). -/
def State.drainState (s : State) (b pc : Nat) : State :=
  s.modSched b fun y =>
    let n := (y.queue.filter fun q => q.pc == pc && q.write).length
    let p := y.pcOf pc
    let d := if s.obj (0x2100 + b) 4 ≤ n then true else if n ≤ s.obj (0x2100 + b) 5 then false else p.drain
    if d == p.drain then y else y.putPc { p with drain := d }

/-- One PC's commands of a cycle: at most one column and one row command (R217). The issue-rate limit spreads column
commands evenly (R353). -/
def State.pcCycle (s : State) (b pc : Nat) : State :=
  let s := s.drainState b pc
  let quarters := issueQuarters (s.bay b).therm.level
  let throttled := (s.bay b).sched.cycle % (4 / quarters) != 0
  let held := s.stackHeld b || s.inWindow b pc
  let taken := ((s.bay b).sched.pcOf pc).taken
  let col := if held || throttled || taken then none else s.pickColumn b pc
  let kind := if taken then 0x0011 else s.slotKind b pc col (held || throttled)
  let s := if s.setCounters.isEmpty then s else s.count (pcOcc kind b pc)
  let s := if taken then s.modSched b fun y => y.putPc { y.pcOf pc with taken := false } else s
  let s := match col with | some q => s.doColumn b q | none => s
  let y := (s.bay b).sched
  if held || !since (y.pcOf pc).rowAt 1 y.cycle then s
  else match s.pickRow b pc with
    | some c => s.doRow b pc c
    | none => s

/-- The PCs that a cycle may concern: all in service where slots are counted, else those with something to do. -/
def State.busyPcs (s : State) (b : Nat) : List Nat :=
  let y := (s.bay b).sched
  (s.pcsInService b).filter fun pc =>
    !s.setCounters.isEmpty || y.queue.any (fun q => q.pc == pc) || y.banks.any (fun k => k.pc == pc) || y.pcs.any fun p => p.pc == pc && p.taken

/-- BAY_COMMAND_ISSUE: one controller-island cycle of a bay, in ascending PC (R217, R233). A KIND 3 Jostle slot has its opportunity
(R457). -/
def execBayCommandIssue (bay : Nat) (s : State) : Out :=
  if s.size.bays ≤ bay then .next s
  else
    let s := (s.busyPcs bay).foldl (fun t pc => t.pcCycle bay pc) s
    let s := s.count { code := 0x0001, bay := some bay, origin := 1 }
    let s := (s.jSlots.filter fun e => jKind e.2 == 3 && jSel e.2 % 32 == bay).foldl (fun t e =>
      if (t.bay bay).sched.cycle < (t.bay bay).sched.ingressHold then t
      else match t.jActs e.1 e.2 with
        | (true, u) => u.modSched bay fun y => { y with ingressHold := y.cycle + jMag e.2 }
        | (false, u) => u) s
    .next (s.modSched bay fun y => { y with cycle := y.cycle + 1 })

/-! ### Ingress (R216, R222, R226, R365) -/

/-- The predictor learns from the bank's next request (R222). -/
def Bank.learn (k : Bank) (row : Nat) : Bank :=
  if !k.train then k
  else
    let c := k.ctr.toNat
    { k with train := false, ctr := BitVec.ofNat 2 (if k.lastRow == some row then c - 1 else min 3 (c + 1)) }

/-- Puts an entry into its bank queue. -/
def State.enqueue (s : State) (b : Nat) (q : BankReq) : State :=
  s.modSched b fun y =>
    let y := y.putBank ((y.bankOf q.pc q.bank).learn q.row)
    let y := if q.realTime then y.startBurst q.pc else y
    { y with queue := y.queue ++ [q] }

/-- A part waits in the ingress of a bay for a request of a class. -/
def Op.inIngress (o : Op) (b c : Nat) (p : Part) : Bool :=
  p.phase == .ingress && p.bay == b && clsOf o.msg == c && (o.stage == .bay || o.stage == .staged)

/-- The ingress of a bay delivers in the order of Sorting within each class (R24, R216): a part passes one that came before it only where
that one waits for a bank queue that is full, and not for the same bank. -/
def State.ingressTurn (s : State) (o : Op) (part bank : Nat) (p : Part) : Bool :=
  let y := (s.bay p.bay).sched
  let blocks (x : Part) : Bool := match x.waitBank with
    | some k => (x.pc == p.pc && k == bank) || (y.bankQueue x.pc k).length < 8
    | none => true
  !s.ops.any fun x => x.parts.zipIdx.any fun e =>
    x.inIngress p.bay (clsOf o.msg) e.1 && (x.sortNo < o.sortNo || (x.id == o.id && e.2 < part)) && blocks e.1

/-- BAY_INGRESS: a part of a request that needs the stack enters its bank queue in its turn, or waits for room in it, for space of its
class, or for the end of a hold (R216, R267, R457). A real-time request ends its PC's retrain window (R365). -/
def execBayIngress (op part bank row : Nat) (s : State) : Out :=
  match s.op op with
  | none => .next s
  | some o =>
    match o.parts[part]? with
    | none => .next s
    | some p =>
      let y := (s.bay p.bay).sched
      let c := clsOf o.msg
      let put (f : Part → Part) : State := s.modOp op fun x =>
        { x with parts := x.parts.mapIdx fun i z => if i == part then f z else z }
      if !o.inIngress p.bay c p || 64 ≤ bank || y.cycle < y.ingressHold || !s.ingressTurn o part bank p then .next s
      else if 8 ≤ (y.bankQueue p.pc bank).length then .next (put fun z => { z with waitBank := some bank })
      else if !s.spaceOk p.bay c 32 then .next (s.noSpace p.bay c)
      else
        let s := put fun z => { z with phase := .queued, waitBank := none }
        let s := if c = 0 && s.inWindow p.bay p.pc then s.cutWindow p.bay p.pc else s
        .next (s.enqueue p.bay
          { op := op, part := part, pc := p.pc, bank := bank, row := row, cls := c, prio := s.flooredPrio c (p.gran / 2 ^ 19)
            green := o.green, at_ := s.now })

/-- REQUEST_AGED: a queued request has waited longer than the age cap (R217). -/
def execRequestAged (bay op part : Nat) (s : State) : Out :=
  match (s.bay bay).sched.queue.find? fun q => !q.write && q.op == op && q.part == part && !q.aged with
  | none => .next s
  | some q =>
    let s := s.reach (q.at_ + s.obj (0x2100 + bay) 1 + 1)
    let s := s.modSched bay fun y => { y with queue := y.queue.map fun x => if x == q then { x with aged := true } else x }
    match s.op op with
    | none => .next s
    | some o => .next (s.count (o.occ 0x0009 bay q.pc ((o.parts.map (·.gran)).getD part 0) s.blockNo))

/-- A dirty granule of a line is not yet in a bank queue for its write-back. -/
def Sched.unqueued (y : Sched) (c : CLine) (h : Nat) : Bool :=
  c.dirty.getLsbD h && !y.queue.any fun q => q.write && q.op == c.line && q.part == h

/-- The cleaner takes a dirty line (R237): while dirty lines exceed the share at 0x2100+n:0B of the cache region, and none that is not yet
taken was used longer ago. -/
def State.cleanerTakes (s : State) (b : Nat) (c : CLine) : Bool :=
  let dirty := (s.bayLines b).filter fun l => l.dirty != 0
  let y := (s.bay b).sched
  decide (s.obj (0x2100 + b) 0x0B * cacheLines (s.accReserved b) < 100 * dirty.length) &&
  dirty.all fun l => c.used ≤ l.used || !(y.unqueued l 0 || y.unqueued l 1)

/-- CARREL_WRITEBACK: the cleaner or an eviction takes a line; each dirty granule enters its bank queue as a write, the cleaner's below
every other (R237). A clean line that is to leave is dropped. -/
def execCarrelWriteback (line bank row : Nat) (evict : Bool) (s : State) : Out :=
  match carrelLine s.mem line with
  | none => .next s
  | some c =>
    let (b, pc, _) := s.gplace (2 * line)
    let y := (s.bay b).sched
    let halves := [0, 1].filter (y.unqueued c)
    if c.dirty = 0 then .next (if c.evict then s.modMem fun m => dropLine m line else s)
    else if !(c.evict || (!evict && s.cleanerTakes b c)) then .next s
    else if halves.isEmpty || 64 ≤ bank || 8 < (y.bankQueue pc bank).length + halves.length then .next s
    else
      let s := halves.foldl (fun t h => t.enqueue b
        { op := line, part := h, pc := pc, bank := bank, row := row, write := true, cls := c.cls
          prio := t.staticPrio c.cls, cleaner := !c.evict, at_ := t.now }) s
      .next (s.count { pcOcc 0x000C b pc with cls := some c.cls })

/-! ### Refresh (R223, R225 to R230) -/

/-- The earliest cycle from `n` on at which an event is `d` cycles past. -/
def after (e : Option Nat) (d n : Nat) : Nat := match e with | none => n | some x => max n (x + d)

/-- The earliest cycle from `n` on at which a bank may be precharged, with no other row command of its PC (R217, R224). -/
def Sched.preAt (y : Sched) (k : Bank) (n : Nat) : Nat :=
  after (y.pcOf k.pc).rowAt 1 (after k.wrAt (y.wl + 1 + y.tWR) (after k.rdAt y.tRTP (after k.act y.tRAS (max n k.busy))))

/-- ROW_IDLE_PRECHARGE: a row left open on a bank idle for the row idle limit is precharged. On a bank for which requests wait it is the
precharge before tRAS(max), whose value the spec does not give: it comes when the sender says (R223; log 52). -/
def execRowIdlePrecharge (bay pc bank : Nat) (s : State) : Out :=
  let y := (s.bay bay).sched
  let k := y.bankOf pc bank
  if k.row.isNone || s.stackHeld bay || s.inWindow bay pc then .next s
  else
    let n := y.preAt k (if (y.bankQueue pc bank).isEmpty then max y.cycle (k.used + s.obj (0x2100 + bay) 3) else y.cycle)
    .next ((s.modSched bay fun y =>
      (({ y with cycle := n }.putBank { k with row := none, pre := some n }).putPc { y.pcOf pc with rowAt := some n })).count
        (pcOcc 0x0005 bay pc))

/-- The refresh limiter issues a REFpb to a bank ahead of every other command of its PC, after a PRE where a row is open (R217, R223,
R228). -/
def State.limiter (s : State) (b pc bank : Nat) : State :=
  let y := (s.bay b).sched
  let k := y.bankOf pc bank
  let p := y.pcOf pc
  let n := y.preAt k y.cycle
  let pre := if k.row.isSome then some n else k.pre
  let other := match p.ref_ with | some r => if r.2 == bank then none else some r.1 | none => none
  let at_ := after p.rowAt 1 (after other y.tRREFD (after pre y.tRP (max y.cycle k.busy)))
  let s := (s.doRef b pc bank).modSched b fun z =>
    (z.putBank { z.bankOf pc bank with pre := pre, busy := at_ + y.tRFC }).putPc
      { z.pcOf pc with ref_ := some (at_, bank), rowAt := some at_ }
  let s := if k.row.isSome then s.count (pcOcc 0x0005 b pc) else s
  (s.bump (0x2200 + b) 0x27).hardLimit 2

/-- When the next refresh interval of a bank falls due (R225). -/
def Sched.dueAt (y : Sched) (k : Bank) : Nat := k.due.getD (y.refFrom + y.refInt)

/-- When the stack of a bay in a shift or swap is in self-refresh: steps 3 to 5 of R241. -/
def Sched.selfFrom (y : Sched) : Nat := y.grantedAt + 6500
def Sched.selfTill (y : Sched) : Nat := y.grantedAt + if y.shift == .swapping then 10500 else 36500

/-- The spacing of R227 holds a forced command to a bank back: another bank of the PC is under one or waits for one, or within a burst
the last to the bank is less than 975 ns ago. -/
def Sched.heldBack (y : Sched) (k : Bank) : Bool :=
  let p := y.pcOf k.pc
  decide (y.cycle < p.forcedTill) || (p.burst && !since k.forced y.spacing y.cycle) ||
  y.banks.any fun o => o.pc == k.pc && o.bank != k.bank && (o.force || o.forceNeigh)

/-- One refresh interval is counted to a bank (R225, R226): where the owed count would exceed the limit in force, a forced REFpb is due. In
a retrain window, and in the first steps of a shift, it is owed only (R230, R241). -/
def State.countInterval (s : State) (b pc bank : Nat) (owedOnly : Bool) : State :=
  let lim := s.owedLimit b pc
  s.modSched b fun y =>
    let k := y.bankOf pc bank
    let k := { k with owed := k.owed + 1, due := some (y.dueAt k + refreshInterval (s.bay b).therm.thermal) }
    let k := if owedOnly || k.force || k.o ≤ lim then k else { k with force := true, counted := y.heldBack k }
    { y.putBank { k with at9 := if 9 ≤ k.o then k.at9.orElse fun _ => some s.now else none } with maxOwed := max y.maxOwed k.o.toNat }

/-- REFRESH_INTERVAL_DUE: tREFI of the band in force has passed for a bank (R225 to R228, R245). A stack in self-refresh refreshes itself,
and a withdrawn PC is not refreshed. -/
def execRefreshIntervalDue (bay pc bank : Nat) (s : State) : Out :=
  let y := (s.bay bay).sched
  let moving := y.shift == .shifting || y.shift == .swapping
  let due := y.dueAt (y.bankOf pc bank)
  if s.size.bays ≤ bay || 64 ≤ bank || !s.pcInService bay pc || (s.stackHeld bay && !moving) ||
      (moving && y.selfFrom ≤ max due s.now) then .next s
  else
    let s := s.reach due
    let s := if 9 ≤ (y.bankOf pc bank).o then s.limiter bay pc bank else s
    .next (s.countInterval bay pc bank (moving || s.inWindow bay pc))

/-- BURST_HOLD_END: a PC's real-time burst ends; banks that owe more than 2 are refreshed until they do not (R226). -/
def execBurstHoldEnd (bay pc : Nat) (s : State) : Out :=
  let y := (s.bay bay).sched
  match (y.pcOf pc).burst, (y.pcOf pc).burstOff with
  | true, some t =>
    .next ((s.reach t).modSched bay fun y => y.putPc { y.pcOf pc with burst := false, burstOff := none })
  | _, _ => .next s

/-- REFRESH_LIMITER: a bank has owed 9 intervals for 975 ns (R228). -/
def execRefreshLimiter (bay pc bank : Nat) (s : State) : Out :=
  match ((s.bay bay).sched.bankOf pc bank).at9 with
  | none => .next s
  | some t => if s.stackHeld bay then .next s else .next ((s.reach (t + 975)).limiter bay pc bank)

/-! ### Read data (R281 to R287) -/

/-- A part of a request is finished, with its data or as uncorrectable; the last one lets the request go on. A read's value of the line is
fixed then for the reads before it (R125), and the bay has served it (R264, R265). -/
def State.partDone (s : State) (o : Op) (part : Nat) (data : Option (List Byte)) : State :=
  let s := s.modOp o.id fun x =>
    { x with parts := x.parts.mapIdx fun i p =>
        if i == part then { p with phase := .done, data := data.getD [], bad := data.isNone } else p }
  match s.op o.id with
  | none => s
  | some x =>
    if x.writes then (s.tryPost x.id).pumpAll
    else match x.parts[part]? with
      | none => s
      | some p =>
        let last := !x.parts.any fun q => q.bay == p.bay && q.there && q.phase != .done
        let s := (s.fixEarlier x.sortNo (p.gran / 2)).bayServes x p.bay 32 last
        if x.parts.all (fun p => p.phase == .done) then
          (s.stamp x.msg.port x.msg.hdr fun i => { i with d5 := some s.time }).finishRead x
        else s

/-- STACK_READ_COMPLETE: the data of a stack read are decoded, corrected, read again or marked, and passed on (R119, R281, R283).
A read of a plain segment that missed allocates a line (R235). `err` and `reread` are the symbol errors met (log 8); `inner` says that the stack's
own code corrected. -/
def execStackReadComplete (op part : Nat) (err reread : SymErr) (inner : Bool) (s : State) : Out :=
  match s.op op with
  | none => .next s
  | some o =>
    match o.parts[part]? with
    | none => .next s
    | some p =>
      if p.phase != .stack then .next s
      else match p.keep with
        | some (d, bad) => .next (s.partDone o part (if bad then none else some d))
        | none =>
          if carrelHit s.mem p.gran then .next (s.partDone o part (some (granule s.mem p.gran).1))
          else
            let (t, d, _) := s.stackRead p.gran err reread inner
            let e := s.opEntry o
            let t := match d with
              | some x =>
                if o.writes || e.pktbuf then t
                else (t.allocLine p.bay (p.gran / 2) (clsOf o.msg)).modMem fun m => fillHalf m p.gran x false (clsOf o.msg) t.now false
              | none => t
            .next (t.partDone o part d)

/-- CARREL_READ_COMPLETE: a Carrel line read, within the limit in force (R32), is decoded under the line code (R286). What the Carrel cannot
give and had clean, or no longer holds, the stack is read for. -/
def execCarrelReadComplete (op part : Nat) (err : SymErr) (s : State) : Out :=
  match s.op op with
  | none => .next s
  | some o =>
    match o.parts[part]? with
    | none => .next s
    | some p =>
      let miss (t : State) : State := t.modOp op fun x =>
        { x with parts := x.parts.mapIdx fun i z => if i == part then { z with phase := .ingress } else z }
      if p.phase != .carrel then .next s
      else match p.keep with
        | some (d, bad) => .next (s.partDone o part (if bad then none else some d))
        | none =>
          match (carrelLine s.mem (p.gran / 2)).filter fun c => c.gvalid.getLsbD (p.gran % 2) with
          | none => .next (miss s)
          | some c =>
            if !s.carrelMay p.bay (clsOf o.msg == 0) then .next s
            else match ((s.useCarrel p.bay).modMem fun m => touchLine m c.line s.now).carrelDecode p.bay p.pc c.data err with
              | (t, true) => .next (t.partDone o part (some (lineHalf c p.gran)))
              | (t, false) =>
                let t := t.loseCarrelLine c
                if c.dirty.getLsbD (p.gran % 2) then .next (t.partDone o part none) else .next (miss t)

/-! ### Shelf Reading (R293, R294) -/

/-- A pass of Shelf Reading in a bay covers an item now: a granule of a valid block on a PC in service, a Carrel line, or a line of its store
(R288, R293). -/
def State.inPass (s : State) (b : Nat) : ScrubItem → Bool
  | .granule g => let (d, pc, _) := s.gplace g; d == b && s.validBit (g / 128) && s.pcInService b pc
  | .line l => (carrelLine s.mem l).isSome && (s.place (64 * l)).1 == b
  | .store l => l < 8 * s.size.segments && ((s.storeBays l).1 == b || (s.storeBays l).2 == b)

/-- How much a pass covers: granules, Carrel lines, and the 131,072 lines of the store. -/
def State.passTotal (s : State) (b : Nat) : Nat :=
  sumN (s.shelf.valid.map fun blk => ((List.range 128).filter fun i => s.inPass b (.granule (128 * blk + i))).length) +
  (s.bayLines b).length + 131072

/-- How much of it the pass has read. -/
def State.passDone (s : State) (b : Nat) : Nat := ((s.bay b).evid.passRead.filter (s.inPass b)).length

/-- When the next read of a pass falls due: reads are spread evenly over the period (R293). -/
def State.passDue (s : State) (b : Nat) : Nat :=
  (s.bay b).evid.passBegan + s.passDone b * (s.obj 0x2C00 1 * 3600000000000) / s.passTotal b

/-- A pass is behind its schedule by more than 1% of the period (R293). -/
def State.passLate (s : State) (b : Nat) : Bool := s.passDue b + s.obj 0x2C00 1 * 36000000000 < s.now

/-- An item of a pass has been read; the last one ends the pass (R293). -/
def State.passStep (s : State) (b : Nat) (i : ScrubItem) : State :=
  let s := s.modBay b fun y => { y with evid := { y.evid with passRead := i :: y.evid.passRead } }
  if s.passTotal b ≤ s.passDone b then
    (s.modBay b fun y => { y with evid := { y.evid with passRead := [], passBegan := s.now } }).bump 0x2C00 3
  else s

/-- Shelf Reading of one granule (R294): a corrected granule is rewritten unless its line is dirty, and one corrected again at
the same symbol is a hard fault (R295). -/
def State.scrubGranule (s : State) (g : Nat) (err reread : SymErr) (inner : Bool) : State :=
  let (b, pc, ga) := s.gplace g
  let (t, d, r) := s.stackRead g err reread inner
  match d with
  | none => t
  | some x =>
    if r.fixes.isEmpty then t.modMem fun m => { m with lastFix := m.lastFix.filter fun e => e.1 != g }
    else
      let known (p : Nat) : Bool := t.mem.hard.any fun h => h.bay == b && h.pc == pc && h.gaddr == ga && h.sym == p
      let again := r.fixes.filter fun p => s.mem.lastFix.contains (g, p) && !known p
      let t := again.foldl (fun u p => u.hardFault b pc ga p true) t
      if t.mem.dirtyAt g then t
      else t.modMem fun m =>
        { stackWrite m g x with lastFix := (m.lastFix.filter fun e => e.1 != g) ++ r.fixes.map fun p => (g, p) }

/-- The PC of a bay that holds a line of its valid-bit store (R288, log 48). -/
def State.storePc (s : State) (b l : Nat) : Nat :=
  let pcs := bitsSet 64 (s.bay b).repair.storePcs.toNat
  pcs.getD (Config.storePc b l % pcs.length) 0

/-- Shelf Reading of a granule of the valid-bit store, under the outer code (R281, R288, R294): one that stays uncorrectable makes this copy of
its line unreadable, and with the other copy unreadable too the line is lost (R292). What the granule holds does not enter: the code is
linear, so the errors alone decide. -/
def State.scrubStore (s : State) (b l : Nat) (err reread : SymErr) (inner : Bool) : State :=
  let pc := s.storePc b l
  let era := (s.lanes b pc).erased.map posOf
  let word := granuleChecks (zeros 32) 0
  let decode (s : State) (e : SymErr) : State × Bool :=
    let r := decodeGranule (zeros 32) word 0 era e
    let s := s.noteDecode b pc (2 ^ 26) r inner
    (if r.ok then s else s.bin b pc 4, r.ok)
  match decode s err with
  | (s, true) => s
  | (s, false) => match decode s reread with
    | (s, true) => s
    | (s, false) =>
      let s := s.uncorrEvent b pc
      let s := { s with shelf := { s.shelf with badCopies := insertBy (fun e => e.1 * 32 + e.2) (l, b)
                                                              (s.shelf.badCopies.filter (· != (l, b))) } }
      let other := if (s.storeBays l).1 == b then (s.storeBays l).2 else (s.storeBays l).1
      if s.copyGood other l || s.shelf.badLines.contains l then s else s.loseLine l

/-- The data of Shelf Reading take the next slot of a PC (R452). -/
def State.takeSlot (s : State) (b pc : Nat) : State := s.modSched b fun y => y.putPc { y.pcOf pc with taken := true }

/-- SHELF_READING_STEP: one read of a pass, at its time (R293, R294). It yields to every request of its PC unless the pass is late. A granule is
read only where its block is valid, its PC in service and the stack not held. Addresses are hall addresses. -/
def execShelfReadingStep (bay : Nat) (target : ScrubTarget) (err reread : SymErr) (inner : Bool) (s : State) : Out :=
  let item : ScrubItem := match target with
    | .granule a => .granule (hallOffset a / 32)
    | .line a => .line (hallOffset a / 64)
    | .store l => .store l
  let pc := match item with
    | .granule g => (s.gplace g).2.1
    | .line l => (s.gplace (2 * l)).2.1
    | .store l => s.storePc bay l
  let y := s.bay bay
  let stack := match item with | .line _ => false | _ => true
  if s.size.bays ≤ bay || y.repair.state != 4 || !s.inPass bay item || y.evid.passRead.contains item then .next s
  else if stack && (s.stackHeld bay || s.inWindow bay pc) then .next s
  else
    let u := s.reach (s.passDue bay)
    if stack && !u.passLate bay && y.sched.queue.any fun q => q.pc == pc then .next s
    else match item with
      | .granule g => .next (((u.scrubGranule g err reread inner).takeSlot bay pc).passStep bay item)
      | .store l => .next (((u.scrubStore bay l err reread inner).takeSlot bay pc).passStep bay item)
      | .line l => match carrelLine s.mem l with
        | none => .next s
        | some c => match (u.useCarrel bay).carrelDecode bay pc c.data err with
          | (t, true) => .next (t.passStep bay item)
          | (t, false) => .next ((t.loseCarrelLine c).passStep bay item)

end Sys2Proof.Machine
end

