-- ==== Sys2Proof/Machine/Shift.lean ====
section
/-! DEFINITION. Frequency shifts and band swaps (R240 to R245, R332, R333). -/

namespace Sys2Proof.Machine

/-- A shift or swap of a bay is in its steps (R241, R245). -/
def Sched.moving (y : Sched) : Bool := y.shift == .shifting || y.shift == .swapping

/-- A PC of the bay is in a real-time burst, and the deferral limit has not passed since the request (R243). -/
def State.deferred (s : State) (b : Nat) : Bool :=
  let y := (s.bay b).sched
  y.pcs.any (·.burst) && s.now < y.shiftAt + s.obj (0x2100 + b) 0x0D * 1000

/-- The shift state 0x2200+n:22: 0 none, 1 awaiting grant, 2 deferred by a burst, 3 waiting for a sweep, 4 in shift, 5 in swap. A band
swap does not wait for a burst (R243, R333). -/
def State.shiftState (s : State) (b : Nat) : Nat :=
  let y := s.bay b
  match y.sched.shift with
  | .shifting => 4
  | .swapping => 5
  | x =>
    if x == .none && !y.sched.swapWanted then 0
    else if y.train.anyRun then 3
    else if !y.sched.swapWanted && s.deferred b then 2
    else 1

/-- A bay seeks the grant of a swap, or of a shift (R242). -/
def State.seeks (s : State) (b : Nat) (swap : Bool) : Bool :=
  let y := s.bay b
  s.shiftState b == 1 && y.sched.swapWanted == swap && y.therm.live && y.train.window.isNone && y.repair.state != 0

/-- The bay that is granted next: swaps first, then shifts, each in ascending bay number, at most two bays at once (R242). -/
def State.shiftTurn (s : State) : Option (Nat × Bool) :=
  if 2 ≤ (s.bays.filter fun y => y.sched.moving).length then none
  else match (List.range s.size.bays).find? fun b => s.seeks b true with
    | some b => some (b, true)
    | none => ((List.range s.size.bays).find? fun b => s.seeks b false).map fun b => (b, false)

/-- The point that 0x2100+n:0C asks for: the clock plan's starting point until it is written (R339). -/
def State.wanted (s : State) (b : Nat) : Nat := ((s.bay b).sched.want).getD (s.obj 0x2010 2)

/-- The operating point in use (R248, R320): the clock plan's starting point until the stack is powered. -/
def State.pointInUse (s : State) (b : Nat) : Nat :=
  if (s.bay b).repair.capacity = 0 then s.obj 0x2010 2 else (s.bay b).sched.point

/-- A granted bay loads its shadow set with the target and begins step 1: it issues no stack command, and a slew in progress stops (R241,
R245, R333). A swap keeps the operating point. The stack's temperature is stale from here on, as in self-refresh, and its held value leaves
the band as it is until an input changes (R345, R346; DEDUCED, log 52). -/
def State.grantShift (s : State) (b : Nat) (st : ShiftSt) : State :=
  s.modBay b fun y =>
    let point := if st == .swapping then y.sched.point else s.wanted b
    { y with sched := { y.sched with shift := st, shadow := point * 2 + b2n (decide (2 ≤ y.therm.thermal)), grantedAt := s.now }
             therm := { y.therm with stale := y.therm.stale ||| 64 }
             train := { y.train with slews := [] } }

/-- A request of a shift to a point (R241). The point in use asks for nothing; before stack power-up it is the point to start at (R320).
The deferral limit counts from the request, also where it comes during a shift or swap (R243). -/
def State.requestShift (s : State) (b point : Nat) : State :=
  let y := (s.bay b).sched
  if y.moving then s.modSched b fun y => { y with want := some point, shiftAt := s.now }
  else if point = y.point || (s.bay b).repair.state < 2 then s.modSched b fun y => { y with want := some point, shift := .none }
  else s.modSched b fun y => { y with want := some point, shift := .awaiting, shiftAt := s.now }

/-- SHIFT_DEFERRAL_EXPIRY: the deferral limit passes, and a deferred shift seeks its grant (R243). -/
def execShiftDeferralExpiry (bay : Nat) (s : State) : Out :=
  if s.shiftState bay != 2 then .next s
  else .next (s.reach ((s.bay bay).sched.shiftAt + s.obj (0x2100 + bay) 0x0D * 1000))

/-- SHIFT_GRANT: a waiting shift is granted in its turn (R242). -/
def execShiftGrant (bay : Nat) (s : State) : Out :=
  if s.shiftTurn == some (bay, false) then .next (s.grantShift bay .shifting) else .next s

/-- BAND_SWAP: a waiting band swap is granted in its turn (R242, R245). -/
def execBandSwap (bay : Nat) (s : State) : Out :=
  if s.shiftTurn == some (bay, true) then .next (s.grantShift bay .swapping) else .next s

/-- Half the difference of the unit intervals of two points, in taps, to nearest (R332). -/
def tapsBetween (from_ dst : Nat) : Int :=
  let at_ (op : Nat) : Int := if op = 0 then 0 else if op = 1 then 10 else 23
  at_ dst - at_ from_

/-- A delay moved by taps, clamped to 0–127. -/
def moveDelay (d : Int) (x : Nat) : Nat := (max 0 (min 127 ((x : Int) + d))).toNat

/-- The record derived for a target set from that of another set (R332). CALSER, TCAL, widths and deskews are those of its source
(DEDUCED, log 22). -/
def deriveRecord (k from_ dst : Nat) : BitVec 512 :=
  let d := tapsBetween (from_ / 2) (dst / 2)
  let put (v old lo w : Nat) : Nat := v * 2 ^ lo + (old - bits old (lo + w - 1) lo * 2 ^ lo)
  let k := put (packBits 7 ((recRdly k).map (moveDelay d))) k 288 35
  let k := put (packBits 7 ((recWdly k).map (moveDelay d))) k 323 35
  let k := put (dst / 2) k 456 2
  let k := put (dst % 2) k 458 1
  sealRecord (recSetState k 2)

/-- Step 6 of R241: the records of the target set load; an empty one is derived from the set in use (R332). -/
def State.loadSet (s : State) (b dst : Nat) : State :=
  let from_ := s.setInUse b
  (s.pcsInService b).foldl (fun t pc =>
    if recState (t.calRec b pc dst) = 0 then t.putRec b pc dst (deriveRecord (t.calRec b pc from_) from_ dst) else t) s

/-- After resume: runs of the PCs whose record was empty or restored, and of those that failed step 7 (R241, R332). -/
def State.runsAfterShift (s : State) (b : Nat) (failed : List Nat) : State :=
  (s.pcsInService b).foldl (fun t pc =>
    let t := if (t.laneOffsets b pc).isEmpty then t else t.slewFrom b pc (recPoints (t.calRec b pc (t.setInUse b)))
    if recState (t.calRec b pc (t.setInUse b)) = 2 || failed.contains pc then t.requestRun b pc else t) s

/-- Step 2 of R241: every owed refresh of a bay is issued. -/
def State.repayAll (s : State) (b : Nat) : State :=
  let owing := (s.bay b).sched.banks.filter fun k => 0 < k.owed
  let s := owing.foldl (fun t k => t.count { pcOcc 0x0006 b k.pc with adds := k.owed.toNat }) s
  let pay (k : Bank) : Bank := { k with owed := min 0 k.owed, force := false, counted := false, at9 := none }
  s.modSched b fun y => { y with banks := y.banks.map pay }

/-- SHIFT_COMPLETE: step 8 of a shift or swap (R241, R245, R332): the bay has repaid its refreshes, left self-refresh at the end of step 5
and runs on the target set. `failed` lists the PCs that failed step 7. A shift takes its 40 µs, a swap its 14 µs (DESIGN CHOICE, log 2). -/
def execShiftComplete (bay : Nat) (failed : List Nat) (s : State) : Out :=
  let y := (s.bay bay).sched
  if !y.moving then .next s
  else
    let swap := y.shift == .swapping
    let ns := if swap then 14000 else 40000
    let s := s.reach (y.grantedAt + ns)
    let point := y.shadow / 2
    let relaxed := y.shadow % 2 == 1
    let s := (s.loadSet bay y.shadow).repayAll bay
    let more := s.wanted bay != point
    let warm := decide (2 ≤ (s.bay bay).therm.thermal)
    let s := s.modSched bay fun y =>
      { y with setB := !y.setB, point := point, relaxed := relaxed, shadow := y.point * 2 + b2n y.relaxed, swapWanted := relaxed != warm
               shift := if more then .awaiting else .none }
    let s := s.leaveSelfRefresh bay (y.grantedAt + ns - 3500)
    let s := (s.bump (0x2200 + bay) 0x23).setObj (0x2200 + bay) 0x24 (ns / 100)
    .next ((s.runsAfterShift bay failed).reguarantee)

end Sys2Proof.Machine
end

