-- ==== Sys2Proof/Machine/Health.lean ====
section
/-! DEFINITION. Health scores and states (R384, R385). -/

namespace Sys2Proof.Machine

/-- An instant lies in the last 24 h. -/
def State.within24h (s : State) (t : Nat) : Bool := s.now < t + 86400000000000

/-- Penalty of one PC of a bay (R384). -/
def State.pcPenalty (s : State) (b pc : Nat) : Nat :=
  let r := (s.bay b).repair
  (if bit (r.pcsOut ||| r.withdrawing ||| r.withdrawn).toNat pc then 40 else 0) + 25 * (s.lanes b pc).erased.length +
    if s.sparesFree b pc = 0 then 10 else 0

/-- Granules of a bay with two hard-fault entries (R384). -/
def State.doubleFaults (s : State) (b : Nat) : Nat :=
  let l := (s.mem.hard.filter fun h => h.bay == b).map fun h => addrTag h.pc h.gaddr
  ((nub l).filter fun a => 2 ≤ (l.filter (· == a)).length).length

/-- The score of a bay (R384). -/
def State.bayScore (s : State) (b : Nat) : Nat :=
  let y := s.bay b
  if y.repair.fence != 0 then 0
  else
    let uncorr := sumN (y.train.lanes.map fun x => (x.uncorr.filter s.within24h).length)
    1000 - (sumN ((List.range 64).map (s.pcPenalty b)) + 30 * y.train.carrelErased.length +
      150 * (4 - popcount 5 y.repair.lanes.toNat) + min 200 (20 * uncorr) + min 200 (50 * s.doubleFaults b) +
      50 * (y.repair.trips.filter s.within24h).length)

/-- The score of the block from those of its bays (R384). Where every bay is fenced the lowest counts as 1,000. -/
def State.blockScore (s : State) (scores : List Nat) : Nat :=
  let open_ := (List.range s.size.bays).filter fun b => !s.fenced b
  let low := (open_.map fun b => scores.getD b 0).foldl min 1000
  low - (100 * (s.size.bays - open_.length) + (if s.twins.state = 1 || s.twins.state = 2 then 200 else 0) +
    20 * popcount 64 s.twins.links.toNat + 10 * ((List.range s.size.ports).filter fun p => (s.port p).linkDown || !(s.bay (p / 2)).repair.island).length)

/-- What the state machine of R385 remembers of a bay or of the block. -/
structure Dwell where
  state : Nat
  bad : Option Nat
  good : Option Nat
  deriving DecidableEq, Repr

/-- One second of a health state (R385): it moves a step after its dwell without a break. -/
def Dwell.second (d : Dwell) (now score wIn wOut fIn fOut dIn dOut : Nat) : Dwell :=
  let worse := d.state < 2 && score < (if d.state = 0 then wIn else fIn)
  let better := d.state != 0 && (if d.state = 1 then wOut else fOut) ≤ score
  let bad := if worse then some (d.bad.getD now) else none
  let good := if better then some (d.good.getD now) else none
  let past (t : Option Nat) (dwell : Nat) : Bool := match t with
    | some x => x + dwell * 1000000000 ≤ now
    | none => false
  if past bad dIn then { state := d.state + 1, bad := none, good := none }
  else if past good dOut then { state := d.state - 1, bad := none, good := none }
  else { d with bad := bad, good := good }

/-- One second of a health state under the thresholds in force. -/
def State.dwell (s : State) (d : Dwell) (score : Nat) : Dwell :=
  d.second s.now score (s.obj 0x2D00 3) (s.obj 0x2D00 4) (s.obj 0x2D00 5) (s.obj 0x2D00 6) (s.obj 0x2D00 7) (s.obj 0x2D00 8)

/-- The score and health state of one bay, with its events (R385, R439). -/
def State.bayHealth (s : State) (b : Nat) : State :=
  let r := (s.bay b).repair
  let score := s.bayScore b
  let d := s.dwell { state := r.health, bad := r.badSince, good := r.goodSince } score
  let s := s.modBay b fun y =>
    { y with repair := { y.repair with score := score, health := d.state, badSince := d.bad, goodSince := d.good } }
  let s := if d.state = r.health then s else s.event 0x0040 b d.state score
  if d.state = 2 && r.health != 2 then s.event 0x0041 b 0 score else s

/-- HEALTH_SCORE_UPDATE: the scores and states of every bay and of the block, every second (R384, R385). -/
def execHealthScoreUpdate (s : State) : Out :=
  let s := s.reach (s.health.at_ + 1000000000)
  let s := (List.range s.size.bays).foldl (fun t b => t.bayHealth b) s
  let score := s.blockScore (s.bays.map fun y => y.repair.score)
  let h := s.health
  let d := s.dwell { state := h.state, bad := h.badSince, good := h.goodSince } score
  let s := (s.setObj 0x2D00 1 score).setObj 0x2D00 2 d.state
  let s := { s with health := { s.health with at_ := s.now, state := d.state, badSince := d.bad, goodSince := d.good } }
  let s := if d.state = h.state then s else s.event 0x0040 0xFF d.state score
  .next (if d.state = 2 && h.state != 2 then s.event 0x0042 0xFF 0 score else s)

end Sys2Proof.Machine
end

