-- ==== Sys2Proof/Machine/Registry.lean ====
section
/-! DEFINITION. The Registry twins, the Tube, crossing parity, the power governor, Pigeonhole errors and the collating lanes
(R16 to R18, R23, R29 to R32, R182, R184, R298, R310, R316, R366, R370, R371). -/

namespace Sys2Proof.Machine

/-- Changes the twins' state. -/
def State.modTwins (s : State) (f : Twins → Twins) : State := { s with twins := f s.twins }

/-- The place of the disabled twin in a list of both, while one runs alone. -/
def Twins.down (w : Twins) : Nat := 2 - w.state

/-- Rejoins of the disabled twin that have failed since reset (R371). -/
def Twins.fails (w : Twins) : Nat := w.rejoinFails.getD w.down 0

/-- A rejoin fails (R371). -/
def Twins.rejoinFailed (w : Twins) : Twins := { w with rejoin := 0, rejoinFails := w.rejoinFails.set w.down (w.fails + 1) }

/-- A twin is disabled and the block goes on with the other (R17); an error of the lone twin stops the block (R370), and one of
a twin that rejoins ends its rejoin (R371). Twin 0 is A, 1 is B; state 1 is A alone, 2 is B alone. -/
def State.twinError (s : State) (t : Nat) : State :=
  if s.twins.state = 0 then
    let left := 1 - t % 2
    let s := (s.modTwins fun w => { w with state := left + 1, rejoin := 0 }).releaseOut
    ((s.bump 0x2030 2).event 0x0050 0xFF left).markTiming
  else if s.twins.state = 3 then s
  else if s.twins.state = t % 2 + 1 then s.stop
  else if s.twins.rejoin ≠ 0 then s.modTwins Twins.rejoinFailed
  else s

/-- TWIN_CHECKER_ERROR (R17, R370, R371). -/
def execTwinCheckerError (twin : Nat) (s : State) : Out := .next (s.twinError twin)

/-- TWIN_MISMATCH: the outputs differ and no checker fired; from now on the Registry's outputs are held, while both twins execute the
window again (R16, R18). -/
def execTwinMismatch (s : State) : Out :=
  .next (if s.twins.state = 0 then s.modTwins fun w => { w with disputed := true } else s)

/-- TWIN_REEXECUTE_DONE: on agreement the agreed outputs leave in place of the held ones, disagreement stops the block (R18). The
outputs that the model holds are those on which the twins come to agree. -/
def execTwinReexecuteDone (agree : Bool) (s : State) : Out :=
  if !s.twins.disputed then .next s else .next (if agree then (s.releaseOut).bump 0x2030 3 else s.stop)

/-- TWIN_REJOIN_STEP_DONE: a step of R371 ends; after step 3 both twins run compared. `ok` is false where step 1 fails or the
twin's checker fires. -/
def execTwinRejoinStepDone (ok : Bool) (s : State) : Out :=
  if s.twins.rejoin = 0 || s.stopped then .next s
  else .next (s.modTwins fun w =>
    if !ok then w.rejoinFailed
    else if w.rejoin < 3 then { w with rejoin := w.rejoin + 1 }
    else { w with rejoin := 0, state := 0 })

/-! ### The Tube (R23, R310) -/

/-- The islands of the spine ring in order (R310). -/
def spineRing : List Nat := [204, 205, 212, 206, 207, 214, 208, 209, 213, 210, 211, 215]

/-- The two ends of a Tube link, as island numbers (R309, R310). -/
def Size.linkEnds (z : Size) (l : Nat) : Nat × Nat :=
  let m := z.ring
  let side (b : Nat) : Nat := 8 * b + 7
  if l < 28 then
    let r := l / 7
    let j := l % 7
    if j = 0 then (204 + 2 * r, side (m * r))
    else if j = m then (side (m * r + m - 1), 205 + 2 * r)
    else (side (m * r + j - 1), side (m * r + j))
  else if l < 40 then (spineRing.getD (l - 28) 0, spineRing.getD ((l - 27) % 12) 0)
  else
    let r := (l - 40) / 6
    let k := (l - 40) % 6
    (side (m * r + k), side (m * ((r + 1) % 4) + k))

/-- Whether a number names a Tube link of the size (R310). -/
def Size.hasLink (z : Size) (l : Nat) : Bool :=
  if l < 28 then decide (l % 7 ≤ z.ring) else l < 40 || (l < 64 && (l - 40) % 6 < z.ring)

/-- The Tube links of a size (R310). -/
def Size.links (z : Size) : List Nat := (List.range 64).filter z.hasLink

/-- The links of a hub island. -/
def Size.hubLinks (z : Size) (island : Nat) : List Nat :=
  z.links.filter fun l => (z.linkEnds l).1 == island || (z.linkEnds l).2 == island

/-- A link is marked failed, with its event. -/
def State.failLink (s : State) (l : Nat) : State :=
  if !s.size.hasLink l || s.twins.links.getLsbD l then s
  else (s.modTwins fun w => { w with links := w.links ||| BitVec.ofNat 64 (2 ^ l) }).event 0x0051 0xFF 0 l

/-- Links fail and the traffic is rerouted, without loss (R23). -/
def State.reroute (s : State) (ls : List Nat) : State :=
  let t := ls.foldl State.failLink s
  if t.twins.links = s.twins.links then s else (t.bump 0x2031 2).markTiming

/-- TUBE_LINK_FAIL: a link or a hub island fails (R23). It stays failed until a block reset. -/
def execTubeLinkFail (part : TubePart) (s : State) : Out :=
  match part with
  | .link n => .next (s.reroute [n])
  | .hub i =>
    if i < 204 || 215 < i then .next s
    else .next ((s.modTwins fun w => { w with hubs := insertN w.hubs i }).reroute (s.size.hubLinks i))

/-- CROSSING_PARITY_ERROR: counted, and handled by where it occurs (R316). -/
def execCrossingParityError (place : CrossPlace) (s : State) : Out :=
  let s := s.bump 0x2011 3
  match place with
  | .bay n =>
    if s.size.bays ≤ n || s.fenced n then .next s
    else .next ((s.modBay n fun y => { y with repair := { y.repair with reason := 8 } }).fenceBay n 4)
  | .link n => .next (s.reroute [n])
  | .twin t => .next (s.twinError t)

/-! ### The governor (R29, R30, R32) -/

/-- Caps on the Carrel, for the classes other than the real-time class, and on collation, that hold the block within an envelope (R29),
all power in hundredths of a watt: the Carrel comes down first, to its floor of 95 W, and collation next, to its floor of 18.75 W.
`base` is what is never limited. Caps are thousandths of the full rates of 380 W and 75 W, rounded down (DESIGN CHOICE, log 45). -/
def governorCaps (env base carrel collation : Nat) : Nat × Nat :=
  let room := env - (base + collation)
  let c := if carrel ≤ room then carrel else max 9500 room
  let rest := env - (base + c)
  let d := if collation ≤ rest then collation else max 1875 rest
  (if c = carrel then 1000 else min 1000 (c * 1000 / 38000), if d = collation then 1000 else min 1000 (d * 1000 / 7500))

/-- The caps in force on the Carrel and on collation: every bay's limiter holds the same ones. -/
def State.capsNow (s : State) : Nat × Nat := ((s.bay 0).power.carrelCap, (s.bay 0).power.collCap)

/-- GOVERNOR_WINDOW: a 10 µs window has passed with the estimated power of its parts in watts: parts that are not capped,
the Carrel for the real-time class and for the others, and collation. A part that ran under a cap is taken to ask for its full rate
(log 45). The Clerk's own caps only lower those of the envelope, and the limiter of every bay enforces the lower ones, or the floors
after a window more than 5% above the envelope (R29, R30, R377, R393). -/
def execGovernorWindow (uncapped : List Nat) (carrelRt carrelOther collation : Nat) (s : State) : Out :=
  let p := sumN uncapped + carrelRt + carrelOther + collation
  let env := s.obj 0x2020 1
  let old := s.capsNow
  let hard := env * 105 < p * 100
  let base := (sumN uncapped + carrelRt) * 100
  let need := governorCaps (env * 100) base (if old.1 < 1000 then 38000 - carrelRt * 100 else carrelOther * 100)
    (if old.2 < 1000 then 7500 else collation * 100)
  let (d, s) := s.draw
  let clerk := (d.toNat % 2 ^ 32, d.toNat / 2 ^ 32)
  let caps := if hard then (250, 250) else (min need.1 (max 250 clerk.1), min need.2 (max 250 clerk.2))
  let flags := b2n (caps.1 < 1000) + 2 * b2n (caps.2 < 1000) + 4 * b2n (caps.1 ≤ 250) + 8 * b2n (caps.2 ≤ 250) + 16 * b2n hard
  let lim (y : Bay) : Bay := { y with power := { carrelCap := caps.1, collCap := caps.2, limiter := hard } }
  let s := ({ s with bays := s.bays.map lim }.setObj 0x2020 2 p).setObj 0x2020 3 flags
  let s := if hard then (s.bump 0x2020 4).hardLimit 1 else s
  .next (if old != caps then s.markTiming else s)

/-! ### Pigeonholes and collating lanes (R184, R298, R366) -/

/-- PIGEONHOLE_ECC_ERROR: a double-bit error fences the bay, a single-bit one is corrected and counted (R298). -/
def execPigeonholeEccError (bay : Nat) (doubleBit : Bool) (s : State) : Out :=
  if s.size.bays ≤ bay then .next s
  else .next (if doubleBit then s.fenceBay bay 5 else s.bin bay 0 5)

/-- A lane leaves service and the spare takes its place (R184); the last one fences the bay (R366). -/
def State.laneOut (s : State) (b lane : Nat) : State :=
  let m : BitVec 5 := BitVec.ofNat 5 (2 ^ lane)
  let left := popcount 5 ((s.bay b).repair.lanes &&& ~~~m).toNat
  let s := s.modBay b fun y =>
    { y with repair := { y.repair with lanes := y.repair.lanes &&& ~~~m
                                       lanesLost := y.repair.lanesLost + b2n (left < 4) } }
  let s := (if left = 4 then s.bump 0x2070 5 else s).markTiming
  let s := if left < 4 then s.event 0x0021 b left else s
  if left = 0 then s.fenceBay b 6 else s

/-- BATCH_APPLY: a lane finishes a batch (R182). With its check failed the batch is discarded, to be applied again on another
lane (R184). `lineErr` are symbol errors in one accumulator line that the lane read (R286). -/
def execBatchApply (cid tile lane : Nat) (ok : Bool) (lineErr : Option (Nat × SymErr)) (s : State) : Out :=
  match (s.con cid).bind fun c => c.tile? tile with
  | none => .next s
  | some t =>
    if (t.phase != .open_ && t.phase != .posting) || t.batches.isEmpty || !(s.bay t.bay).repair.lanes.getLsbD lane ||
        s.fenced t.bay || !s.collMay t.bay then .next s
    else if ok then .next (s.applyBatch cid tile lineErr).pumpAll
    else .next (s.laneOut t.bay lane)

end Sys2Proof.Machine
end

