-- ==== Sys2Proof/Machine/Timetable.lean ====
section
/-! DEFINITION. The Collection Timetable and the time-of-day input (R208 to R211, R260 to R263). Times are network time in ns. -/

namespace Sys2Proof.Machine

/-- Changes the Timetable. -/
def State.modTable (s : State) (f : Timetable → Timetable) : State := { s with table := f s.table }

/-- An administrative entry: GATES and DURATION (R260). -/
def Timetable.entry (t : Timetable) (i : Nat) : W64 × Nat :=
  match t.admin.find? fun e => e.1 == i with
  | some e => (BitVec.ofNat 64 e.2.1, e.2.2)
  | none => (BitVec.allOnes 64, 0)

/-- Sets an administrative entry; one at its reset value is not listed. -/
def Timetable.setEntry (t : Timetable) (i : Nat) (gates : Nat) (dur : Nat) : Timetable :=
  { t with admin := setA t.admin i (gates % 2 ^ 64, dur) (2 ^ 64 - 1, 0) }

/-- An entry as its 16 bytes, G0 and G1 (R260). -/
def gateBytes (e : W64 × Nat) : List Byte := toBytes 8 e.1.toNat ++ toBytes 8 e.2

/-- Where a network time falls in a cycle. -/
def Timetable.pos (t : Timetable) (net : Nat) : Nat := (((net : Int) - t.operBase) % (max 1 t.operCycle : Nat)).toNat

/-- Starts of the entries in a cycle, with their gates; entries beyond the cycle's end are cut (R261). -/
def Timetable.starts (t : Timetable) : List (Nat × W64) :=
  ((t.oper.foldl (fun (r : List (Nat × W64) × Nat) e => (r.1 ++ [(r.2, e.1)], r.2 + e.2)) ([], 0)).1).filter
    fun x => x.1 < t.operCycle

/-- The gates that hold at a network time, and the next instant at which an entry begins (R261). -/
def Timetable.at_ (t : Timetable) (net : Nat) : W64 × Nat :=
  let p := t.pos net
  let g := (t.starts.filter fun x => x.1 ≤ p).foldl (fun _ x => x.2) (BitVec.allOnes 64)
  let next := match t.starts.find? fun x => p < x.1 with
    | some x => x.1
    | none => t.operCycle
  (g, net + (next - p))

/-- The Timetable runs: enabled, with a list, on a time of day that has locked (R263). -/
def State.tableRuns (s : State) : Bool := s.obj 0x2700 1 == 1 && s.tod.state != 0 && !s.table.oper.isEmpty

/-- Sets the gates; messages whose gates have opened are tried (R254, R261). -/
def State.setGates (s : State) (g : W64) : State :=
  let old := s.table.gates
  let s := s.modTable fun t => { t with gates := g, changed := s.netTime }
  if old = g then s else (s.releaseHeld fun o => g.getLsbD (clsOf o.msg) && !old.getLsbD (clsOf o.msg)).pumpAll

/-- The gates as they hold now: all open where the Timetable does not run (R263). -/
def State.applyTable (s : State) : State :=
  s.setGates (if s.tableRuns then (s.table.at_ s.netTime).1 else BitVec.allOnes 64)

/-- A TIME record: 0 gate, 1 release, 2 lock (R398). -/
def State.timeRec (s : State) (what : Nat) : State :=
  s.record 24 6 (BitVec.ofNat 64 s.netTime) (BitVec.ofNat 64 (what * 2 ^ 14))

/-- The instant at which a network time falls. -/
def State.instant (s : State) (net : Nat) : Nat := ((net : Int) - s.tod.offset).toNat

/-- GATE_CHANGE: the next entry of the operational list begins (R261). -/
def execGateChange (s : State) : Out :=
  if !s.tableRuns then .next s
  else
    let at_ := (s.table.at_ s.table.changed).2
    let s := s.reach (s.instant at_)
    let g := (s.table.at_ at_).1
    let s := if g = s.table.gates then s else s.timeRec 0
    .next ((s.setGates g).modTable fun t => { t with changed := at_ })

/-- When a list that is committed now takes effect (R262). -/
def State.effectAt (s : State) (base cycle : Nat) : Nat :=
  let net := s.netTime
  if net ≤ base then base else base + ceilDiv (net + 1000 - base) cycle * cycle

/-- A commit of the administrative list: none where R262 refuses it. -/
def State.commitTable (s : State) : Option State :=
  let len := s.obj 0x2700 4
  let list := (List.range len).map s.table.entry
  if len = 0 || s.table.waiting.isSome || list.any fun e => e.2 < 64 || 1000000000 < e.2 then none
  else
    let base := s.obj 0x2700 2
    let cycle := s.obj 0x2700 3
    some (s.modTable fun t =>
      { t with waiting := some (base, cycle, list), effect := if s.tod.state = 0 then base else s.effectAt base cycle })

/-- TIMETABLE_TAKE_EFFECT: a committed list becomes operational when R262 has it take effect; the cycle in progress is cut (R262). -/
def execTimetableTakeEffect (s : State) : Out :=
  match s.table.waiting with
  | none => .next s
  | some (base, cycle, list) =>
    if s.tod.state = 0 then .next s
    else
      let at_ := s.table.effect
      let s := s.reach (s.instant at_)
      let s := s.modTable fun t => { t with oper := list, operBase := base, operCycle := cycle, waiting := none }
      let u := s.applyTable
      .next ((if u.table.gates = s.table.gates then u else u.timeRec 0).modTable fun t => { t with changed := at_ })

/-- At the first lock, a committed list gets its time of effect (R262), and the Tallies that a checkpoint restored get their targets:
one that has passed is released at once (R210, R211). -/
def State.firstLock (s : State) : State :=
  let s := s.modTable fun t =>
    { t with effect := match t.waiting with | some w => s.effectAt w.1 w.2.1 | none => t.effect }
  (s.tal.tallies.filter fun e => e.2.armed && e.2.armAt.isNone).foldl (fun t e =>
    let (at_, d) := t.armTarget e.2.armtime
    if d ≤ 2 ^ 39 then t.setTally e.1 { t.tally e.1 with armAt := some at_ }
    else if t.pausing then t.setTally e.1 { t.tally e.1 with late := true }
    else t.armedFire e.1) s

/-- TOD_LOCK_CHANGE: the time-of-day input locks at a network time, or loses lock and goes on in holdover (R210, R263). -/
def execTodLockChange (locked : Bool) (netTime : Nat) (s : State) : Out :=
  if !locked then
    if s.tod.state != 1 then .next s
    else .next (({ s with tod := { s.tod with state := 2 } } : State).timeRec 2)
  else
    let first := s.tod.state == 0
    let s : State := { s with tod := { state := 1, offset := (netTime : Int) - s.now } }
    let s := s.timeRec 2
    .next ((if first then s.firstLock else s).applyTable)

end Sys2Proof.Machine
end

