-- ==== Sys2Proof/Machine/Boot.lean ====
section
/-! DEFINITION. Reset, bring-up, rails, the reference clock, TESTEN, and the start of a run (R8, R304 to R313, R318 to R324, R334 to
R339, R348, R372, R392, R424, R466, R471). -/

namespace Sys2Proof.Machine

/-- Changes the bring-up state. -/
def State.modBoot (s : State) (f : Boot → Boot) : State := { s with boot := f s.boot }

/-! ### Reset (R424, R471) -/

/-- The block enters reset: its ports report link-down, STK_PWREN and SLOW_REQ are deasserted, and all but the key store, the
comparators, the pins and, unless `lost`, a pending firmware image returns to its reset value (R372, R424, R471). A bay rail that was lost
before a reset is watched afresh in the bring-up that follows (R307, R471; log 46). -/
def State.toReset (s : State) (lost : Bool) : State :=
  let s := ((List.range s.size.ports).filter s.inService).foldl (fun t p => t.emit (.linkDown p)) s
  let s := (List.range s.size.bays).foldl (fun t b => t.stackPower b false) s
  let s := if s.boot.slowReq then s.emit (.slowReq false) else s
  let b := s.boot
  { State.reset with
    size := s.size, ports := List.replicate s.size.ports {}
    pending := s.pending, now := s.now, runStart := s.now, free := s.free, nextId := s.nextId, wire := s.wire, keys := s.keys
    boot := { brst := b.brst, testen := b.testen, vaux := b.vaux, vddr := b.vddr, railBad := if b.held then b.railBad else [], refclk := b.refclk
              refLostAt := b.refLostAt, pendingImage := if lost then none else b.pendingImage }
    bays := s.bays.map fun y => { therm := { comps := y.therm.comps.set 6 0 } }
    buses := { nodeId := s.buses.nodeId, rates := s.buses.rates, i3cStatic := s.buses.i3cStatic, lastBeat := s.now }
    test := { ir := s.test.ir, wrapper := s.test.wrapper, bayReg := s.test.bayReg, bypassBit := s.test.bypassBit
              wirInstr := s.test.wirInstr, pins := s.test.pins } }

/-- Bring-up starts at step 1 (R304), with an order challenge drawn (R386). -/
def State.startUp (s : State) : State :=
  let (c, s) := s.draw
  ({ s with health := { s.health with challenge := c, at_ := s.now, sensedAt := s.now } } : State).modBoot fun b =>
    { b with held := false, code := 1, step := 1, t0 := s.now, stepAt := s.now }

/-- Bring-up starts again after a loss of VAUX or VDDR, once both are good (R471). -/
def State.tryStart (s : State) : State :=
  if s.boot.held && s.boot.brst && s.boot.vaux && s.boot.vddr then s.startUp else s

/-- BRST_RELEASE: BRST_N is released, and bring-up begins; step 1 waits for the rails (R304, R307). The straps are read (R424, R429,
R431). -/
def execBrstRelease (canId canRates i3cStatic : Nat) (s : State) : Out :=
  if s.boot.brst then .next s
  else
    let s := s.toReset true
    .next (({ s with buses := { s.buses with nodeId := canId, rates := canRates, i3cStatic := i3cStatic } } : State).modBoot
      fun b => { b with brst := true }).startUp

/-- BRST_ASSERT: BRST_N holds the block in reset (R471). -/
def execBrstAssert (s : State) : Out :=
  if !s.boot.brst then .next s else .next ((s.toReset true).modBoot fun b => { b with brst := false })

/-- The reset that a write of 2 to 0x2000:02 makes (R304, R424). -/
def State.blockReset (s : State) : State := (s.toReset false).startUp

/-- CORE_RAIL_LOSS: VAUX or VDDR loses power-good; after step 1 the block holds itself in reset (R471). -/
def execCoreRailLoss (vaux : Bool) (s : State) : Out :=
  let f (b : Boot) : Boot := { b with vaux := b.vaux && !vaux, vddr := b.vddr && vaux, pendingImage := if vaux then none else b.pendingImage }
  .next (if s.boot.held || s.boot.step = 1 then s.modBoot f else (s.toReset vaux).modBoot f)

/-- RAIL_RESTORE: VAUX and VDDR are good, as step 1 waits for them, or again after a loss (R307, R471). -/
def execRailRestore (s : State) : Out := .next ((s.modBoot fun b => { b with vaux := true, vddr := true }).tryStart)

/-! ### Failures (R306, R338) -/

/-- A block-level failure of the current step (R306). -/
def State.bringFail (s : State) (reason where_ : Nat) : State :=
  s.modBoot fun b => { b with code := 0x30, failStep := b.step, failReason := reason, failWhere := where_ }

/-- The bays that bring-up powers, trains and tests: those not fenced by logic (R22, R306, R368). -/
def State.soundBays (s : State) : List Nat := (List.range s.size.bays).filter fun b => (s.bay b).repair.fence ≤ 2

/-- A bay-level failure at bring-up (R306): the bay is fenced by logic, with its reason, also where it was under an ordered fence. -/
def State.bayFail (s : State) (b reason : Nat) : State :=
  if 2 < (s.bay b).repair.fence then s
  else
    let s := (s.modBay b fun y => { y with repair := { y.repair with reason := reason, state := 5 } }).fenceBay b 7
    s.modBay b fun y => { y with repair := { y.repair with fence := 7 } }

/-- The bays of a list that fail, with one reason. -/
def State.baysFail (s : State) (l : List Nat) (reason : Nat) : State := (l.filter (· < s.size.bays)).foldl (fun t b => t.bayFail b reason) s

/-- The bays that are not fenced. -/
def State.openBays (s : State) : List Nat := (List.range s.size.bays).filter fun b => !s.fenced b

/-- BAY_RAIL_LOSS: a rail of a bay loses power-good: at step 1 the bay fails there, later it is fenced and its contents are lost
(R307, R471). -/
def execBayRailLoss (bay : Nat) (rail : BayRail) (s : State) : Out :=
  if s.size.bays ≤ bay || s.boot.railBad.contains (bay, rail) then .next s
  else
    let s := s.modBoot fun b => { b with railBad := b.railBad ++ [(bay, rail)] }
    if s.boot.held || s.boot.step = 1 then .next s
    else
      let down := rail == .vddb && (s.bay bay).repair.island
      let ports := if down then [2 * bay, 2 * bay + 1].filter s.inService else []
      let s := s.modBay bay fun y => { y with repair := { y.repair with reason := 1, island := y.repair.island && rail != .vddb } }
      let s := ports.foldl (fun t p => (t.emit (.linkDown p)).dropPort p) s
      let s := s.fenceBay bay 8
      let s := s.modBay bay fun y => { y with repair := { y.repair with fence := 8 } }
      .next ((s.loseContents bay).stackPower bay false)

/-! ### The reference clock and TESTEN (R308, R466) -/

/-- REFCLK_LOSS: every island holds its frequency (R308). -/
def execRefclkLoss (s : State) : Out :=
  if s.boot.refclk then .next (s.modBoot fun b => { b with refclk := false, refLostAt := s.now }) else .next s

/-- REFCLK_RETURN: the islands leave their held frequency (R308). -/
def execRefclkReturn (s : State) : Out := .next (s.modBoot fun b => { b with refclk := true })

/-- REFCLK_TIMEOUT: REFCLK has been absent for 100 µs; a running block stops (R308). -/
def execRefclkTimeout (s : State) : Out :=
  if s.boot.refclk || !s.running then .next s else .next ((s.reach (s.boot.refLostAt + 100000)).stop)

/-- TESTEN_RISE: after the awaiting-start hold the block stops (R466). -/
def execTestenRise (s : State) : Out :=
  let s := s.modBoot fun b => { b with testen := true }
  let c := s.boot.code
  .next (if !s.boot.held && ((3 ≤ c && c ≤ 0x0B) || c = 0x11 || c = 0x12 || c = 0x20) then s.stop else s)

/-- TESTEN_FALL: an intrusive instruction in force acts as BYPASS from now on (R466). -/
def execTestenFall (s : State) : Out := .next (s.modBoot fun b => { b with testen := false })

/-! ### The clock plan and Roll Call (R26, R311 to R313) -/

/-- Byte `i` of the die map (R339). -/
def State.dieByte (s : State) (i : Nat) : Nat := s.obj 0x2010 1 / 256 ^ i % 256

/-- Die of an end of a Tube link. -/
def State.dieOf (s : State) (island : Nat) : Nat := if island < 192 then s.dieByte (island / 8) else s.dieByte (26 + (island - 204))

/-- The plan checksum 0x2010:03 (R339). -/
def State.planCrc (s : State) : Nat := crc32c (toBytes 38 (s.obj 0x2010 1) ++ toBytes 1 (s.obj 0x2010 2))

/-- The Tube links that cross a die boundary, each with its boundary (R26, R311). -/
def State.dieCuts (s : State) : List (Nat × Nat) :=
  s.size.links.filterMap fun l =>
    let a := s.dieOf (s.size.linkEnds l).1
    let b := s.dieOf (s.size.linkEnds l).2
    if a = b then none else some (l, min a b * 4 + max a b)

/-- Roll Call refuses the clock plan (R311). -/
def State.planRefused (s : State) : Bool :=
  let cut := s.dieCuts.map (·.2)
  (List.range 38).any (fun i => 3 < s.dieByte i) || [212, 213].any (fun i => s.dieOf i != s.dieByte 24) ||
  [214, 215].any (fun i => s.dieOf i != s.dieByte 25) || cut.any fun x => (cut.filter (· == x)).length < 2

/-- The island or bay that a refused plan concerns: what has a die above 3, a Registry hub off its twin's die, or an end of a lone
crossing (R306, R311; log 46). -/
def State.planWhere (s : State) : Nat :=
  match (List.range 38).find? fun i => 3 < s.dieByte i with
  | some i => if i < 24 then i else if i < 26 then 192 + 6 * (i - 24) else 178 + i
  | none =>
    match [212, 213, 214, 215].find? fun i => s.dieOf i != s.dieByte (if i < 214 then 24 else 25) with
    | some i => i
    | none =>
      match s.dieCuts.find? fun e => (s.dieCuts.filter fun x => x.2 == e.2).length < 2 with
      | some e => (s.size.linkEnds e.1).1
      | none => 0

/-- The islands joined to a set by links in service whose ends are up, after `n` rounds. -/
def reachable (links : List (Nat × Nat)) : Nat → List Nat → List Nat
  | 0, l => l
  | n + 1, l =>
    reachable links n (links.foldl (fun acc e =>
      if acc.contains e.1 then insertN acc e.2 else if acc.contains e.2 then insertN acc e.1 else acc) l)

/-- The island that is up and that no working twin reaches, if there is one: the Tube is partitioned (R313). -/
def State.cutOff (s : State) (down : List Nat) : Option Nat :=
  let up := ((List.range s.size.bays).map (8 * · + 7) ++ (List.range 12).map (204 + ·)).filter fun i => !down.contains i && !s.twins.hubs.contains i
  let links := ((s.size.links.filter fun l => !s.twins.links.getLsbD l).map s.size.linkEnds).filter fun e => up.contains e.1 && up.contains e.2
  let roots := (if s.twins.state = 2 then [] else [212, 213]) ++ (if s.twins.state = 1 then [] else [214, 215])
  let seen := reachable links 36 (roots.filter up.contains)
  up.find? fun i => i < 212 && !seen.contains i

/-- What Roll Call makes of the islands that have not answered (R313). In determinism mode the crossings are aligned and their latencies
recorded; their CRC, which the RUN records show, is a free value (R312, R399). -/
def State.rollCall (s : State) (down : List Nat) : State :=
  let down := nub (down.filter s.size.hasIsland)
  let (c, s) := s.draw
  let lostA := (List.range 6).any fun i => down.contains (192 + i)
  let lostB := (List.range 6).any fun i => down.contains (198 + i)
  let s := s.modTwins fun w =>
    { w with state := if lostA then 2 else if lostB then 1 else 0, aligned := s.determinism
             latency := c.toNat % 2 ^ 32
             roster := (List.range 264).foldl (fun r i => if down.contains i || !s.size.hasIsland i then r else r ||| BitVec.ofNat 264 (2 ^ i)) 0 }
  let s := s.setObj 0x2011 2 down.length
  if lostA && lostB then s.bringFail 3 (((List.range 12).find? fun i => down.contains (192 + i)).getD 0 + 192)
  else
    let hubs := down.filter fun i => 204 ≤ i && i ≤ 215
    let s := (s.modTwins fun w => { w with hubs := hubs.foldl insertN w.hubs }).reroute (hubs.flatMap s.size.hubLinks)
    match s.cutOff down with
    | some i => s.bringFail 3 i
    | none =>
      let sides := (List.range s.size.bays).filter fun b => down.contains (8 * b + 7)
      let s := sides.foldl (fun t b => t.modBay b fun y => { y with repair := { y.repair with island := false } }) s
      let s := s.baysFail ((List.range s.size.bays).filter fun b => (List.range 8).any fun i => down.contains (8 * b + i)) 7
      let dead := (List.range s.size.ports).filter fun p => sides.contains (p / 2) || down.contains (216 + p)
      dead.foldl (fun t p => (if down.contains (216 + p) then t.setPort p { t.port p with linkDown := true } else t).emit (.linkDown p)) s

/-! ### Firmware (R318, R319) -/

/-- The length of a firmware image that its header states: 256 + LENGTH (R318). -/
def imageLen (img : List Byte) : Nat := 256 + ofBytes ((img.drop 20).take 4)

/-- An image is complete (R318). -/
def imageComplete (img : List Byte) : Bool := 256 ≤ img.length && imageLen img ≤ img.length

/-- What step 5 makes of an image: 0 where it is accepted, else the reason of R338 (R319). -/
def imageReason (img : List Byte) : Nat :=
  let w (i : Nat) : Nat := ofBytes ((img.drop (8 * i)).take 8)
  let len := bits (w 2) 63 32
  let pub := (img.drop 32).take 96
  let sig := (img.drop 128).take 96
  let sound := w 0 == 0x4B5A434B00010000 && bits (w 2) 31 0 == 0 && w 3 == 0 && ((img.drop 224).take 32).all (· == 0) &&
    len % 4096 == 0 && 4096 ≤ len && len ≤ 4194304
  if !sound || ofBytesBe (sha384 pub) != Config.keyDigest.toNat ||
      !ecdsaValid pub sig (img.take 128 ++ (img.drop 256).take len) then 7
  else if bits (w 1) 31 0 < Config.minSvn.toNat then 8
  else 0

/-! ### Steps (R304, R305) -/

/-- Step `n` begins; steps 5 and 10 begin with their holds (R305, R372), and step 6 with the stacks of the bays that are warm (R320, R348). -/
def State.enterStep (s : State) (n : Nat) : State :=
  let s := if n = 5 && s.boot.image.isEmpty then s.modBoot fun b => { b with image := b.pendingImage.getD [], pendingImage := none } else s
  let code := if n = 5 then (if imageComplete s.boot.image then 5 else 0x11) else if n = 10 then 0x12 else n
  let s := s.modBoot fun b => { b with step := n, code := code, stepAt := s.now }
  if n = 6 then (s.soundBays.filter fun b => !(s.bay b).therm.below0).foldl State.powerUp s else s

/-- A step is done and the next begins; a block with no bay left fails (R306). -/
def State.nextStep (s : State) : State :=
  let s := s.modBoot fun b => { b with lastMs := (s.now - b.t0) / 1000000 }
  if s.boot.code = 0x30 then s
  else if s.openBays.isEmpty then s.bringFail 11 0
  else if s.boot.step = 2 then s.modBoot fun b => { b with code := 0x10 }
  else s.enterStep (s.boot.step + 1)

/-- A temperature refuses start-up (R348). -/
def State.startRefused (s : State) : Bool :=
  s.bays.any fun y => (List.range 6).any fun i => (y.therm.comp i).getLsbD 0 || (y.therm.comp i).getLsbD 3

/-- Step 6 (R8, R278, R320): the stacks that answer, their capacity, their on-die ECC and their spare lanes. Every bay whose stack answers
shows its capacity, a fenced one too, and with capacities that differ the first that differs from the lowest bay's is reported with reason
2 (R8, R80; log 46). -/
def State.stackStep (s : State) (r : StepReport) : State :=
  let found (b : Nat) : Nat := getA r.capacity b 128
  let s := ((List.range s.size.bays).filter fun b => !r.stackDead.contains b).foldl (fun t b =>
    t.modBay b fun y => { y with repair := { y.repair with capacity := found b } }) s
  let bad := s.soundBays.filter fun b => !([32, 48, 64, 96, 128].contains (found b))
  let s := ((s.baysFail (s.soundBays.filter r.stackDead.contains) 1).baysFail (s.soundBays.filter r.stackBad.contains) 2).baysFail bad 2
  let caps := s.soundBays.map found
  match s.soundBays.find? fun b => found b != caps.headD 0 with
  | some b => (s.modBay b fun y => { y with repair := { y.repair with reason := 2 } }).bringFail 9 b
  | none =>
    State.reguarantee <| s.soundBays.foldl (fun t b =>
      let point := t.wanted b
      t.modBay b fun y =>
        let band := max 1 y.therm.bandOf
        { y with repair := { y.repair with state := 2, onDie := true }
                 therm := { y.therm with thermal := band }
                 sched := { y.sched with point := point, relaxed := decide (2 ≤ band), setB := false
                                         refFrom := t.now, refInt := refreshInterval band }
                 train := { y.train with spares := getA r.spares b 2 } }) s

/-- Step 7 (R323, R324). -/
def State.trainStep (s : State) (r : StepReport) : State :=
  let warm := bit (s.obj 0x2000 8) 0
  s.soundBays.foldl (fun t b =>
    match t.sweepBay b r warm with
    | (u, true) => u.modBay b fun y => { y with repair := { y.repair with state := 3 } }
    | (u, false) => u.bayFail b 3) s

/-- A restored Carrel record passes its verification (R334); the Carrel is numbered as PC 64 in the report. -/
def State.carrelWarm (s : State) (b : Nat) (r : StepReport) : Bool :=
  bit (s.obj 0x2000 8) 1 && !(s.bay b).train.carrelRec.isEmpty && !r.verifyFail.contains (b, 64) && !r.carrelDead.contains b

/-- Step 8 (R22, R334). -/
def State.carrelStep (s : State) (r : StepReport) : State :=
  s.soundBays.foldl (fun t b =>
    if t.carrelWarm b r then t.modBay b fun y => { y with repair := { y.repair with carrel := 3 } }
    else
      let (u, why) := t.calibrateBay b r
      if why = 0 then u else u.bayFail b why) s

/-- Step 9 (R288, R335): the stores lie on the PCs in service. -/
def State.storeStep (s : State) (r : StepReport) : State :=
  let s := s.baysFail r.storeBad 6
  match (List.range s.size.pairOffset).find? fun b => s.fenced b && s.fenced (b + s.size.pairOffset) with
  | some b => s.bringFail 10 b
  | none => s.soundBays.foldl (fun t b =>
      let pcs := (t.pcsInService b).foldl (fun (m : BitVec 64) pc => m ||| BitVec.ofNat 64 (2 ^ pc)) 0
      t.modBay b fun y => { y with repair := { y.repair with state := 4, storePcs := pcs } }) s

/-- The failing index and reason of the initial load; the stage status belongs to the stage and keeps its value (R80, R92). -/
def State.loadFailure (s : State) (idx reason : Nat) : State := (s.setObj 0x2400 4 idx).setObj 0x2400 5 reason

/-- Validates the initial Shelf List (R80): groups that touch a fenced bay become fenced. -/
def State.loadShelf (s : State) : State :=
  match s.validateLoad with
  | some (i, why) => (s.loadFailure i why).bringFail 12 0
  | none =>
    let s := s.shelf.load.foldl (fun t e => t.setEntry e.1 e.2) s
    let segs := s.groups fun e => e.state == 1 && (bitsSet 24 e.bayset).any s.fenced
    let s := (segs.flatMap s.groupSegs).foldl (fun t i => t.setEntry i ((t.entry i).setState 2)) s
    ((s.loadFailure 0 0).modShelf fun x => { x with load := [] }).modBoot fun b => { b with code := 0x0A }

/-- A write of 1 to 0x2000:02 (R305, R336, R466): none outside a hold point, or while TESTEN refuses. -/
def State.proceed (s : State) : Option State :=
  if s.boot.code = 0x10 && !s.boot.testen then some (s.enterStep 3)
  else if s.boot.code = 0x12 then some s.loadShelf
  else none

/-- A run begins (R392): the serial, block time, the flags, replay and the RUN record. -/
def State.beginRun (s : State) : State :=
  let s := s.bump 0x2E00 5
  let s := { s with runStart := s.now }
  let s := s.setObj 0x2E00 6 (if s.determinism then 8 else 0)
  let play := s.day.armed && s.obj 0x2E00 0x0A != 0
  let here (x : Stream) : Stream := { x with runFrom := x.next }
  let s := { s with day := { s.day with admissions := 0, armed := false, pos := [], diverged := [], maps := [], matched := [], freed := []
                                        streams := s.day.streams.map here } }
  let s := if play then s.setObj 0x2E00 0x0B 2 else s
  s.record 24 1 (BitVec.ofNat 64 (s.planCrc * 2 ^ 32 + s.twins.latency)) (BitVec.ofNat 64 (s.obj 0x2E00 4)) (s.obj 0x2E00 5)

/-- The generators of neighbour refresh and of registered items (R233, R454): from the run seed in determinism mode, else drawn. -/
def State.seedGenerators (s : State) : State :=
  (List.range s.size.bays).foldl (fun t b =>
    let seed := BitVec.ofNat 64 (t.obj 0x2E00 4)
    let (d1, t1) := t.draw
    let (d2, t2) := t1.draw
    let x := if t.determinism then seed ^^^ BitVec.ofNat 64 b else d1
    let y := if t.determinism then seed ^^^ BitVec.ofNat 64 (32 + b) else d2
    let u := if t.determinism then t else t2
    let u := u.modSched b fun z => { z with lfsr := lfsrSeed x }
    { u with test := { u.test with itemLfsr := putA u.test.itemLfsr b (lfsrSeed y) } }) s

/-- Port enable (R336): the block runs. -/
def State.portEnable (s : State) : State :=
  let s := (s.modBoot fun b => { b with code := 0x20, lastMs := (s.now - b.t0) / 1000000 }).seedGenerators
  let s := ((List.range s.size.ports).filter fun p => bit (s.portCfg p) 0 && !(s.port p).linkDown).foldl (fun t p => t.enablePort p) s
  s.beginRun

/-- When a rail reached power-good, in µs (R307). -/
def railAt (l : List (Rail × Nat)) (r : Rail) : Nat := ((l.find? fun e => e.1 == r).map (·.2)).getD 0

/-- The longest time from one rail's power-good to the next, in µs (R307). -/
abbrev railGap : Nat := 50000

/-- VAUX or VDDR is late or out of order: VAUX comes first, within 50 ms, and VDDR second, within 50 ms of it (R307). -/
def railsBad (l : List (Rail × Nat)) : Bool :=
  railGap < railAt l .vaux || railAt l .vddr < railAt l .vaux || railAt l .vaux + railGap < railAt l .vddr

/-- The bays of the rails that do not reach power-good within 50 ms of the one before them: those after the first gap (R307). -/
def baysLate (l : List (Rail × Nat)) : List Nat :=
  let order := sortBy (fun e => e.2) (l.filterMap fun e => match e.1 with | .bay n _ => some (n, e.2) | _ => none)
  (order.foldl (fun (acc : List Nat × Nat) e =>
    if e.2 < railAt l .vddr || acc.2 + railGap < e.2 then (acc.1 ++ [e.1], acc.2) else (acc.1, e.2)) ([], railAt l .vddr)).1

/-- BRINGUP_STEP_COMPLETE: the step that runs ends, by what the hardware found (R304, R306). A step that still waits for its rails, its
clock or warmth does not end. -/
def execBringupStepComplete (r : StepReport) (s : State) : Out :=
  let c := s.boot.code
  if s.boot.held then .next s
  else if c = 1 then
    if !s.boot.vaux || !s.boot.vddr || s.startRefused then .next s
    else if railsBad r.rails then .next (s.bringFail 1 0)
    else .next ((s.baysFail (nub (s.boot.railBad.map (·.1) ++ baysLate r.rails)) 1).nextStep)
  else if c = 2 then
    .next (if !s.boot.refclk || r.refclkHz < 99500000 || 100500000 < r.refclkHz then s.bringFail 2 0 else s.nextStep)
  else if c = 3 then .next (if s.planRefused then s.bringFail 4 s.planWhere else (s.rollCall r.islandsDown).nextStep)
  else if c = 4 then
    let st := s.twins.state
    if r.twinDown = 0 then .next s.nextStep
    else if 3 ≤ r.twinDown || st = r.twinDown then .next (s.bringFail 5 0)
    else .next ((s.modTwins fun w => { w with state := 3 - r.twinDown }).nextStep)
  else if c = 5 then
    let why := imageReason s.boot.image
    if why = 0 then
      .next ((s.modBoot fun b => { b with fwVer := some (BitVec.ofNat 32 (ofBytes ((b.image.drop 12).take 4))) }).nextStep)
    else .next (((s.hardLimit 10).modBoot fun b => { b with image := [] }).bringFail why 0)
  else if c = 6 then (if s.coldWait then .next s else .next ((s.stackStep r).nextStep))
  else if c = 7 then .next ((s.trainStep r).nextStep)
  else if c = 8 then .next ((s.carrelStep r).nextStep)
  else if c = 9 then .next ((s.storeStep r).nextStep)
  else if c = 0x0A then .next s.nextStep
  else if c = 0x0B then .next s.portEnable
  else .next s

/-- Timeout of a step in ns (R304). -/
def stepLimit (n : Nat) : Nat :=
  if n = 11 then 1000 else [0, 200, 10, 10, 20, 50, 100, 100, 30, 50].getD n 0 * 1000000

/-- BRINGUP_STEP_TIMEOUT: a step has exceeded its timeout (R304, R307). A rail of a bay that is still missing at step 1 fences that bay
alone. -/
def execBringupStepTimeout (s : State) : Out :=
  let c := s.boot.code
  if s.boot.held || c = 0 || c = 0x0A || 0x0B < c || s.coldWait then .next s
  else
    let s := s.reach (s.boot.stepAt + stepLimit s.boot.step)
    let late := nub (s.boot.railBad.map (·.1))
    if c = 1 && s.boot.vaux && s.boot.vddr && !s.startRefused && !late.isEmpty then .next ((s.baysFail late 1).nextStep)
    else .next (s.bringFail (if c = 1 && (!s.boot.vaux || !s.boot.vddr) then 1 else if c = 1 && s.startRefused then 15
      else if c = 2 && !s.boot.refclk then 2 else 14) 0)

/-- HOST_WAIT_TIMEOUT: a hold for firmware, the Shelf List or warmth has lasted too long (R305, R348). -/
def execHostWaitTimeout (s : State) : Out :=
  let c := s.boot.code
  if s.boot.held || !(c = 0x11 || c = 0x12 || s.coldWait) then .next s
  else
    let s := s.reach (s.boot.stepAt + s.obj 0x2000 7 * 1000000000)
    .next (s.bringFail (if c = 0x11 then 6 else if c = 0x12 then 13 else 15) 0)

end Sys2Proof.Machine
end

