-- ==== Sys2Proof/Machine/Pause.lean ====
section
/-! DEFINITION. New runs, replay, pause, checkpoint, resume and the Postmark self-test (R392, R400 to R411). -/

namespace Sys2Proof.Machine

/-- Changes the Daybook's state. -/
def State.modDay (s : State) (f : Day → Day) : State := { s with day := f s.day }

/-! ### Pause and resume (R407, R408, R411) -/

/-- Consignments that are active (R162, R398). -/
def State.activeCons (s : State) : Nat := (s.cons.filter fun c => c.state == .active).length

/-- Tiles that are open. -/
def State.openTiles (s : State) : Nat := sumN (s.cons.map fun c => (c.tiles.filter fun t => t.phase == .open_).length)

/-- A pause is requested (R407): none where one is in progress. -/
def State.requestPause (s : State) : Option State :=
  if s.pausing then none else some ((s.setObj 0x2E00 0x0E 1).modDay fun d => { d with pausedAt := some s.now })

/-- A tile holds up no pause: nothing of it is under way (R407). -/
def Tile.quiet (t : Tile) : Bool :=
  t.batches.isEmpty && t.staged.isEmpty && t.replayWait.isEmpty && t.phase != .posting &&
  (t.phase == .open_ || t.copies.all CopySt.over && (t.digest == 0 || t.digest == 3))

/-- The conditions of R407 all hold. -/
def State.pauseReady (s : State) : Bool :=
  s.ops.isEmpty && s.waits.isEmpty && s.seqs.all (fun q => q.held.isEmpty && q.turn.isEmpty) && s.tal.waiters.isEmpty &&
  s.cons.all (fun c => c.state != .admitting && c.release.isNone && c.tiles.all Tile.quiet) &&
  s.sessions.all (fun x => x.evWait.all fun w => w.2.isNone) && s.partners.all (fun p => p.unanswered.isEmpty) && (s.groups fun e => e.state == 3).isEmpty &&
  (match s.shelf.commit with | some c => c.first.isNone | none => true)

/-- PAUSED: the block reaches the paused state; the sequence states are dropped (R407, R408). -/
def execPaused (s : State) : Out :=
  if s.obj 0x2E00 0x0E != 1 || !s.pauseReady then .next s
  else
    let s := (s.setObj 0x2E00 0x0E 2).modDay fun d => { d with pausedAt := some s.now }
    let ps := s.partners.map fun (p : Partner) => { p with needSync := true }
    let s := { s with seqs := [], partners := ps }
    .next (s.record 24 9 (BitVec.ofNat 64 s.activeCons) (BitVec.ofNat 64 s.openTiles))

/-- Releases the armed Tallies that fell due while the block was pausing or paused (R211). -/
def State.fireLate (s : State) : State :=
  (s.tal.tallies.filter fun e => e.2.armed && e.2.late && s.tod.state != 0).foldl (fun t e => t.armedFire e.1) s

/-- PAUSE_TIMEOUT: the block is not paused within 0x2E00:0F; the pause fails (R407), and what fell due meanwhile is released (R211). -/
def execPauseTimeout (s : State) : Out :=
  if s.obj 0x2E00 0x0E != 1 then .next s
  else
    let s := s.reach (s.day.pausedAt.getD s.now + s.obj 0x2E00 0x0F * 1000000)
    .next ((s.setObj 0x2E00 0x0E 3).modDay fun d => { d with pausedAt := none }).fireLate

/-- Resumes a paused block (R211, R408, R411): timeouts run on, and armed Tallies that fell due are released late. -/
def State.resume (s : State) : Option State :=
  if s.obj 0x2E00 0x0E != 2 then none
  else
    let d := s.now - s.day.pausedAt.getD s.now
    let s := (s.setObj 0x2E00 0x0E 0).modDay fun x => { x with pausedAt := none }
    let later (t : Tile) : Tile := { t with openedAt := t.openedAt + d, stagedAt := t.stagedAt + d }
    let cs := s.cons.map fun (c : Con) => { c with tiles := c.tiles.map later }
    let s : State := { s with cons := cs }
    let s := s.record 24 10 (BitVec.ofNat 64 s.activeCons) (BitVec.ofNat 64 s.openTiles)
    some s.fireLate

/-! ### Checkpoints (R409, R410); the layout within the sections is the model's own (log 25) -/

/-- One accumulator in its A bytes; in Ledger modes the least number stands for an empty one. -/
def accCode (p : Slip) (a : Acc) : List Byte :=
  let n := p.accBytes
  toBytes n (match a with
    | .empty => if p.ledger then 2 ^ (8 * n - 1) else 0
    | .bits b => b.toNat
    | .int v => unsigned (8 * n) v)

/-- The accumulator that A bytes spell. -/
def accOf (p : Slip) (fresh : Bool) (bs : List Byte) : Acc :=
  let v := ofBytes bs
  let n := 8 * p.accBytes
  if fresh || (p.ledger && v = 2 ^ (n - 1)) then .empty
  else if p.ledger && !p.bitwise then .int (signed n v)
  else .bits (BitVec.ofNat 32 v)

/-- The saved part of an open tile: 96 bytes and its accumulators (R409). Elements whose line was lost are saved as zero. -/
def State.ckTile (s : State) (c : Con) (t : Tile) : List Byte :=
  let p := c.slip
  let left := c.ctns - (s.day.pausedAt.getD s.now - t.openedAt)
  let fresh := t.acc == List.replicate t.acc.length .empty
  padTo 96 (toBytes 2 c.cid ++ toBytes 4 t.idx ++ toBytes 4 t.count ++ toBytes 1 t.flags.toNat ++ toBytes 1 (b2n t.short) ++
    toBytes 1 (b2n fresh) ++ toBytes 1 (b2n t.retrieved) ++ toBytes 8 left ++ toBytes 32 t.hashSum) ++
  (t.acc.mapIdx fun i a => accCode p (if t.accBad.contains i then (if p.ledger && !p.bitwise then .int 0 else .bits 0) else a)).flatten

/-- The saved part of a consignment: 1,152 bytes and the bitmap of its completed tiles (R409). -/
def ckCon (c : Con) : List Byte :=
  let done := (List.range c.slip.ntiles).foldl (fun m i => if c.completed i then m ||| 2 ^ i else m) 0
  padTo 128 (toBytes 2 c.cid ++ toBytes 1 c.cgen.toNat ++ toBytes 1 c.msg.hdr.domain.toNat ++ toBytes 1 c.msg.hdr.tclass.toNat ++
    toBytes 1 c.msg.port ++ toBytes 3 c.msg.hdr.srcid.toNat ++ toBytes 2 c.msg.hdr.tag.toNat ++ toBytes 2 c.msg.hdr.len.toNat ++
    toBytes 1 (if c.state == .draining then 1 else 0) ++ toBytes 1 c.outcome.toNat ++ toBytes 4 c.streamNext ++ toBytes 4 c.admNo ++
    toBytes 8 c.ctns ++ toBytes 1 (b2n c.ctBound) ++ toBytes 1 (b2n c.ttBound) ++ toBytes 1 (b2n c.weightBad)) ++
  padTo 1024 c.bytes ++ toBytes (32 * ceilDiv (ceilDiv c.slip.ntiles 8) 32) done

/-- The checkpoint's header (R409). -/
def State.ckHead (s : State) (cons tiles : Nat) : List Byte :=
  padTo 256 (toBytes 4 s.size.product ++ toBytes 4 2 ++ toBytes 4 0x20001 ++ toBytes 4 (b2n s.determinism) ++
    toBytes 8 (s.obj 0x2E00 4) ++ toBytes 8 (s.obj 0x2E00 5) ++ toBytes 8 cons ++ toBytes 8 tiles ++ toBytes 8 524288)

/-- The checkpoint of a paused block (R409). -/
def State.checkpointBytes (s : State) : List Byte :=
  let cons := (s.cons.map ckCon).flatten
  let tiles := (s.cons.map fun c => ((c.tiles.filter fun t => t.phase == .open_ && 0 < t.count).map (s.ckTile c)).flatten).flatten
  let tal := ((List.range 16384).map fun n => (s.tallyWords n).flatMap fun w => toBytes 8 w.toNat).flatten
  let body := s.ckHead cons.length tiles.length ++ cons ++ tiles ++ tal
  body ++ sha256 body

/-- A field of a saved record. -/
def ckField (bs : List Byte) (at_ n : Nat) : Nat := ofBytes ((bs.drop at_).take n)

/-- A consignment from its saved part, and the rest; none where its slip is not one. -/
def parseCkCon (bs : List Byte) : Option (Con × List Byte) :=
  let f := ckField bs
  let slip := (bs.drop 128).take 1024
  let len := f 11 2
  let a : Arrival :=
    { port := f 5 1
      hdr := { opcode := 0x08, tclass := BitVec.ofNat 6 (f 4 1), domain := BitVec.ofNat 8 (f 3 1), srcid := BitVec.ofNat 20 (f 6 3)
               tag := BitVec.ofNat 16 (f 9 2), len := BitVec.ofNat 12 len }
      data := padTo (64 * ceilDiv (len + 1) 2) slip }
  match parseSlip a with
  | none => none
  | some p =>
    let n := 32 * ceilDiv (ceilDiv p.ntiles 8) 32
    let done := ofBytes ((bs.drop 1152).take n)
    some ({ cid := f 0 2, state := if f 13 1 = 1 then .draining else .active, cgen := BitVec.ofNat 4 (f 2 1), msg := a, slip := p
            bytes := slip.take (32 * (len + 1)), ctns := f 23 8, outcome := BitVec.ofNat 4 (f 14 1), streamNext := f 15 4, admNo := f 19 4
            ctBound := f 31 1 == 1, ttBound := f 32 1 == 1, weightBad := f 33 1 == 1
            closed := ((List.range p.ntiles).filter (bit done)).map fun i => (i, 0#4) }, bs.drop (1152 + n))

/-- The consignments of a checkpoint. -/
def parseCkCons : Nat → List Byte → Option (List Con)
  | 0, bs => if bs.isEmpty then some [] else none
  | k + 1, bs =>
    if bs.isEmpty then some []
    else match parseCkCon bs with
      | none => none
      | some (c, rest) => (parseCkCons k rest).map (c :: ·)

/-- The open tiles of a checkpoint, with their consignments; `paused` is when the block paused, and stands for now (R408). -/
def parseCkTiles (cons : List Con) (paused : Nat) : Nat → List Byte → Option (List (Nat × Tile))
  | 0, bs => if bs.isEmpty then some [] else none
  | k + 1, bs =>
    if bs.isEmpty then some []
    else
      let f := ckField bs
      match cons.find? fun c => c.cid == f 0 2 with
      | none => none
      | some c =>
        let n := c.slip.accBytes
        let e := c.slip.elems
        let body := (bs.drop 96).take (e * n)
        let t : Tile :=
          { idx := f 2 4, bay := 0, openedAt := paused - (c.ctns - f 14 8), count := f 6 4, flags := BitVec.ofNat 4 (f 10 1)
            short := f 11 1 == 1, applied := f 12 1 != 1, retrieved := f 13 1 == 1, hashSum := f 22 32
            acc := (List.range e).map fun i => accOf c.slip (f 12 1 == 1) ((body.drop (i * n)).take n) }
        (parseCkTiles cons paused k (bs.drop (96 + e * n))).map ((c.cid, t) :: ·)

/-- A Tally from its four words (R187). -/
def tallyOf (bs : List Byte) : Tally :=
  let w (i : Nat) : W64 := BitVec.ofNat 64 (ofBytes ((bs.drop (8 * i)).take 8))
  let t0 := w 0
  { value := t0.extractLsb' 32 32, owner := t0.extractLsb' 24 8, oport := t0.extractLsb' 18 6, pbind := t0.getLsbD 17
    state := t0.extractLsb' 15 2, wrap := t0.getLsbD 14, use_ := t0.extractLsb' 12 2, gen := t0.extractLsb' 10 2
    armed := t0.getLsbD 9, releasing := t0.getLsbD 8, bound := t0.getLsbD 7, limit := (w 1).extractLsb' 32 32
    shadow := (w 1).extractLsb' 0 32, wtimeout := (w 2).extractLsb' 48 16, outcome := (w 2).extractLsb' 44 4
    armtime := (w 3).extractLsb' 32 32 }

/-- A restored armed Tally takes its target (R211). -/
def State.retarget (s : State) (t : Tally) : Tally :=
  if !t.armed || s.tod.state = 0 then t
  else
    let (at_, d) := s.armTarget t.armtime
    if d ≤ 2 ^ 39 then { t with armAt := some at_ } else { t with armAt := some s.netTime, late := true }

/-- Puts the consignments, open tiles and Tallies of a checkpoint into a block, if every home bay can reserve (R144, R410). Open tiles
without a contribution open afresh; weights are read again (DEDUCED, log 25). -/
def State.restoreState (s : State) (cons : List Con) (tiles : List (Nat × Tile)) (tal : List Byte) : Option State :=
  let step (r : Option State) (c : Con) : Option State :=
    match r with
    | none => none
    | some t =>
      let c := { c with map := if c.slip.kind = 1 then t.tileMap c.slip else [] }
      let bays := t.resBays c
      if bays.any fun b => !t.canReserve c b then none
      else
        let mine := (tiles.filter fun x => x.1 == c.cid).map fun x => { x.2 with bay := t.homeOf c x.2.idx }
        some { t with cons := t.cons ++ [{ c with reserved := bays, tiles := mine }] }
  match cons.foldl step (some s) with
  | none => none
  | some t =>
    let tallies := (List.range 16384).foldl (fun l n =>
      let x := tallyOf ((tal.drop (32 * n)).take 32)
      if x = {} then l else l ++ [(n, t.retarget x)]) []
    let t := { t with tal := { t.tal with tallies := tallies } }
    let t := cons.foldl (fun u c => u.readWeights c.cid) t
    some (cons.foldl (fun u c => (u.con c.cid).elim u fun d =>
      d.reserved.foldl (fun v b =>
        (List.range (d.slip.window - (d.tiles.filter fun x => x.bay == b).length)).foldl (fun w _ => w.openNext c.cid b) v) u) t)

/-- Restores a checkpoint: none where R410 refuses it. -/
def State.restore (s : State) (bs : List Byte) : Option State :=
  let body := bs.take (bs.length - 32)
  let cl := ckField bs 32 8
  let tl := ckField bs 40 8
  if s.obj 0x2E00 0x0E != 2 || s.activeCons != 0 || bs.length != 256 + cl + tl + 524288 + 32 || sha256 body != bs.drop (bs.length - 32) ||
      ckField bs 0 4 != s.size.product || ckField bs 4 4 != 2 || ckField bs 8 4 != 0x20001 || ckField bs 12 4 != b2n s.determinism then none
  else match parseCkCons 4096 ((bs.drop 256).take cl) with
    | none => none
    | some cons =>
      match parseCkTiles cons (s.day.pausedAt.getD s.now) (cl + tl) ((bs.drop (256 + cl)).take tl) with
      | none => none
      | some tiles => s.restoreState cons tiles ((bs.drop (256 + cl + tl)).take 524288)

/-! ### Daybook dumps and replay (R400 to R403) -/

/-- A record as its 32 bytes (R398). -/
def DayRec.bytes (r : DayRec) : List Byte :=
  toBytes 8 r.d0.toNat ++ toBytes 8 r.d1.toNat ++ toBytes 8 r.d2.toNat ++ toBytes 8 r.d3.toNat

/-- The Daybook dump: each stream's descriptor and its records (R400). -/
def State.dumpBytes (s : State) : List Byte :=
  ((List.range 25).map fun n =>
    let x := s.day.streams.getD n {}
    padTo 32 (toBytes 8 n ++ toBytes 8 x.recs.length ++ toBytes 8 (match x.recs with | r :: _ => r.dseq | [] => x.next)) ++
      (x.recs.map DayRec.bytes).flatten).flatten

/-- A record from 32 bytes. -/
def dayRecOf (bs : List Byte) : DayRec :=
  let w (i : Nat) : W64 := BitVec.ofNat 64 (ofBytes ((bs.drop (8 * i)).take 8))
  { d0 := w 0, d1 := w 1, d2 := w 2, d3 := w 3 }

/-- The streams of a dump: none where it is not one. -/
def parseDump : Nat → Nat → List Byte → Option (List (Nat × List DayRec))
  | 0, _, bs => if bs.isEmpty then some [] else none
  | k + 1, n, bs =>
    let cnt := ckField bs 8 8
    if bs.length < 32 || ckField bs 0 8 != n || bs.length < 32 + 32 * cnt then none
    else (parseDump k (n + 1) (bs.drop (32 + 32 * cnt))).map
      ((n, (List.range cnt).map fun i => dayRecOf ((bs.drop (32 + 32 * i)).take 32)) :: ·)

/-- A recording written through the Data Port is loaded (R401): its run flags are those of its last MARK record (R393). -/
def State.loadDump (s : State) (bs : List Byte) : Option State :=
  match parseDump 25 0 bs with
  | none => none
  | some l =>
    let flags := ((getA l 24 []).filter fun r => r.kind == 8).foldl (fun f r => f ||| r.d1.toNat % 256) 0
    some (s.modDay fun d => { d with loaded := l, loadedFlags := flags })

/-- A selection of replay (R401, R403): none where it is refused. -/
def State.selectReplay (s : State) (v : Nat) : Option State :=
  if v = 0 then some (((s.setObj 0x2E00 0x0A 0).setObj 0x2E00 0x0B 0).modDay fun d => { d with armed := false })
  else if s.day.loaded.isEmpty || bit s.day.loadedFlags 0 || bit s.day.loadedFlags 2 then none
  else some (((s.setObj 0x2E00 0x0A v).setObj 0x2E00 0x0B 1).modDay fun d => { d with armed := true })

/-- Replay status 0x2E00:0B: complete once every stream that is compared is at its end (R413). -/
def State.replayStatus (s : State) : Nat :=
  let st := s.obj 0x2E00 0x0B
  let left (e : Nat × List DayRec) : Bool :=
    (e.2.drop (getA s.day.pos e.1 0)).any fun r => r.kind != 4 && r.kind != 8 && r.kind != 11
  let accepts := sumN (s.day.loaded.map fun e => (e.2.filter fun r => r.kind == 4).length)
  if st = 2 && !s.day.loaded.any left && accepts ≤ s.day.matched.length then 4 else st

/-- First divergence 0x2E00:0C: the earliest in the order of R399 (R403). -/
def State.firstDivergence (s : State) : Nat :=
  let rank (d : Nat × Nat × DayRec) : Nat :=
    (bits d.2.2.d0.toNat 55 12 * 64 + (if d.1 = 24 then 0 else d.1 + 1)) * 2 ^ 32 + d.2.1
  match pick rank s.day.diverged with
  | some d => d.1 * 2 ^ 32 + d.2.1
  | none => 0

/-- The Postmark self-test (R406). -/
def State.postmarkTest (s : State) : State :=
  let d := sha256 [0x61, 0x62, 0x63]
  let good := d == toBytesBe 32 0xba7816bf8f01cfea414140de5dae2223b00361a396177a9cb410ff61f20015ad
  (s.modDay fun x => { x with selfTest := d }).setObj 0x2E00 0x10 (b2n !good)

end Sys2Proof.Machine
end

