-- ==== Sys2Proof/Machine/Catalogue.lean ====
section
/-! DEFINITION. The Catalogue's sessions, and the value that every object reads (R2, R33, R34, R62, R92, R126, R162, R186, R215,
R247, R248, R274 to R276, R302, R303, R337 to R341, R357, R358, R386 to R388, R412 to R425, R437, R441, R448 to R450, R469). -/

namespace Sys2Proof.Machine

/-! ### Abort codes (R428) -/

abbrev abNoSession : Nat := 0x05040005
abbrev abTimeout : Nat := 0x05040000
abbrev abNoIndex : Nat := 0x06020000
abbrev abNoSub : Nat := 0x06090011
abbrev abReadWo : Nat := 0x06010001
abbrev abWriteRo : Nat := 0x06010002
abbrev abPriv : Nat := 0x06010000
abbrev abLength : Nat := 0x06070010
abbrev abRange : Nat := 0x06090030
abbrev abHeld : Nat := 0x08000021
abbrev abState : Nat := 0x08000022
abbrev abContent : Nat := 0x08000020
abbrev abEnd : Nat := 0x08000024
abbrev abLogin : Nat := 0x08000000

/-- What an access comes to: its abort code, 0 for none, the bytes it returns, the state after it, and whether a block reset follows
its answer (R424), or whether the answer waits for an event (R440). -/
structure Verdict where
  abort : Nat := 0
  value : List Byte := []
  st : State
  reset : Bool := false
  wait : Bool := false

/-- An access that is done. -/
def State.done (s : State) : Verdict := { st := s }

/-- An access that is aborted. -/
def State.abort (s : State) (code : Nat) : Verdict := { abort := code, st := s }

/-- An access that a condition refuses with a code, or that leads to a state. -/
def State.unless (s : State) (bad : Bool) (code : Nat) (t : State) : Verdict := if bad then s.abort code else t.done

/-- An access that its state refuses, or that leads to a state. -/
def State.try_ (s : State) (t : Option State) : Verdict := match t with | some u => u.done | none => s.abort abState

/-! ### Sessions (R420 to R422) -/

/-- An SDO channel takes frames (R429, R430). -/
def State.channelOn (s : State) (ch : Nat) : Bool :=
  s.buses.nodeId != 0 && (ch == 0 || (ch ≤ 3 && !bit (s.obj (0x1200 + ch) 1) 31 && !bit (s.obj (0x1200 + ch) 2) 31))

/-- The Catalogue islands are out of reset (R304). -/
def State.catalogueUp (s : State) : Bool := !s.boot.held && s.boot.code != 1 && s.boot.code != 2

/-- An access of a session reaches the Catalogue: before port enable and in the stopped state only over CAN FD and I3C, else also in-band
on a port that accepts MGMT, and from a Clerk that runs (R19, R63, R319, R430). -/
def State.reaches (s : State) (k : Sess) : Bool :=
  s.catalogueUp && match k with
  | .can ch => s.channelOn ch
  | .i3c => true
  | .inband p _ => s.running && s.inService p && bit (s.portCfg p) 2
  | .clerk => s.boot.fwVer.isSome && s.running

/-- An in-band session. -/
def sessBand : Sess → Bool
  | .inband _ _ => true
  | _ => false

/-- The Clerk's session. -/
def sessClerk : Sess → Bool
  | .clerk => true
  | _ => false

/-- The number of a transport in a MGMT record (R398). -/
def sessTransport : Sess → Nat
  | .can _ => 0
  | .i3c => 1
  | .inband _ _ => 2
  | .clerk => 3

/-- Ends a session: a read that waits for an event is answered, and its hold of the Data Port ends (R420, R434, R440). -/
def State.endSession (s : State) (x : Session) : State :=
  let s := x.evWait.foldl (fun t w => t.catAnswer x.key w.2 0 (zeros 16)) s
  let s := { s with sessions := s.sessions.filter fun y => y.key != x.key }
  if s.dport.holder == some x.key then { s with dport := { s.dport with holder := none, content := [], length := 0 } } else s

/-- Opens the session of an access, if it is not open: none where no slot is free (R420). A new session draws its challenge
(R441). -/
def State.openSession (s : State) (k : Sess) : Option State :=
  if (s.session k).isSome then some s
  else
    let band := s.sessions.filter fun x => sessBand x.key
    let room : Option State :=
      if !sessBand k || band.length < 64 then some s
      else match pick (fun x => x.used) band with
        | some x => if s.now < x.used + 1000000000 then none else some (s.endSession x)
        | none => some s
    match room with
    | none => none
    | some t =>
      let (c, t) := t.draw
      some { t with sessions := t.sessions ++
        [{ key := k, chal := c, used := t.now, evPtr := t.events.next - t.events.queue.length }] }

/-- The session of an access, with what time has taken from it: privilege after 600 s without an access (R420). -/
def State.current (s : State) (k : Sess) : Session :=
  let x := (s.session k).getD { key := k }
  { x with priv := if x.used + 600000000000 ≤ s.now then 0 else x.priv, used := s.now }

/-- A session's own value of a selection (R422). -/
def Session.get (x : Session) (i sub : Nat) : Nat := getA x.sel (Objects.key i sub) (Objects.dflt (Objects.key i sub))

/-- Sets a session's selection. -/
def Session.put (x : Session) (i sub v : Nat) : Session :=
  { x with sel := setA x.sel (Objects.key i sub) v (Objects.dflt (Objects.key i sub)) }

/-! ### Computed values -/

/-- A decimal number as ISO 646 characters. -/
def decimal (n : Nat) : List Byte := (Nat.repr n).toList.map fun c => BitVec.ofNat 8 c.toNat

/-- 0x100A:00: "major.minor.build" of the Clerk's image (R318). -/
def verString (v : Nat) : List Byte := decimal (bits v 31 24) ++ [0x2E] ++ decimal (bits v 23 16) ++ [0x2E] ++ decimal (bits v 15 0)

/-- 0x1008:00: the name of the configuration; R2 gives that of KZ24, and the others are spelled alike (log 51). -/
def Size.name (z : Size) : List Byte :=
  [0x4B, 0x72, 0x79, 0x74, 0x7A, 0x65, 0x6E, 0x20, 0x4B, 0x5A] ++ decimal z.bays

/-- Identity, key slots, straps and session objects (R2, R3, R421, R441). -/
def State.readIdent (s : State) (x : Session) (i sub : Nat) : Option Nat :=
  if i = 0x1001 then some s.errorReg
  else if i = 0x100A then some (ofBytes ((s.boot.fwVer.map fun v => verString v.toNat).getD []))
  else if i = 0x1008 then some (ofBytes s.size.name)
  else if i = 0x1018 && sub = 2 then some s.size.product
  else if i = 0x1018 && sub = 4 then some Config.serial.toNat
  else if i = 0x1014 then some (0x80 + s.buses.nodeId)
  else if i = 0x1200 && sub = 1 then some (0x600 + s.buses.nodeId)
  else if i = 0x1200 && sub = 2 then some (0x580 + s.buses.nodeId)
  else if i = 0x1F00 && sub = 1 then some x.chal.toNat
  else if i = 0x1F00 && sub = 3 then some x.priv
  else if (i = 0x1F01 || i = 0x2D01) && sub != 0 then some (getA s.keys (Objects.key i sub) 0)
  else if i = 0x1F20 && sub = 1 then some Config.i3cPid.toNat
  else if i = 0x1F20 && sub = 2 then some s.buses.i3cDyn
  else if i = 0x1F30 && sub = 1 then some s.buses.nodeId
  else if i = 0x1F30 && sub = 2 then some s.buses.rates
  else none

/-- Bring-up, the clock plan, the twins and the Tube (R34, R337, R339). -/
def State.readBoot (s : State) (i sub : Nat) : Option Nat :=
  let b := s.boot
  if i = 0x2000 then
    (if sub = 1 then some b.code else if sub = 3 then some b.failStep else if sub = 4 then some b.failReason
      else if sub = 5 then some b.failWhere else if sub = 6 then some b.lastMs else none)
  else if i = 0x2010 && sub = 3 then some s.planCrc
  else if i = 0x2010 && sub = 4 then some (b2n s.twins.aligned)
  else if i = 0x2011 && sub = 1 then some s.twins.roster.toNat
  else if i = 0x2030 && sub = 1 then some s.twins.state
  else if i = 0x2030 && sub = 4 then some (b2n (s.dieByte 24 != s.dieByte 25))
  else if i = 0x2031 && sub = 1 then some s.twins.links.toNat
  else none

/-- The query result of a CID (R162). One that is being admitted has the CGEN of its last activation (R60). -/
def State.queryCid (s : State) (q : Nat) : Nat :=
  let old := (s.past.find? fun p => p.cid == q).getD { cid := q, cgen := 0 }
  let word (st cgen out kind done : Nat) : Nat := st * 2 ^ 60 + cgen * 2 ^ 56 + out * 2 ^ 52 + kind * 2 ^ 48 + done
  match s.con q with
  | none => word 0 old.cgen.toNat old.outcome.toNat old.kind old.done
  | some c =>
    if c.state = .admitting then word 1 old.cgen.toNat old.outcome.toNat c.slip.kind 0
    else word (if c.state = .active then 2 else 3) c.cgen.toNat c.outcome.toNat c.slip.kind c.doneCount

/-- Numbers as bytes of a fixed width, the first lowest. -/
def packed (w : Nat) (l : List Nat) : Nat := packBits (8 * w) l

/-- Ports, consignments, collation, Franking and events (R6, R162, R186, R275, R441). -/
def State.readWork (s : State) (x : Session) (i sub : Nat) : Option Nat :=
  if i = 0x2040 && sub = 0 then some s.size.ports
  else if i = 0x2060 && sub = 1 then some s.activeCons
  else if i = 0x2060 && sub = 4 then some (s.queryCid (x.get 0x2060 3))
  else if i = 0x2070 && sub = 6 then some (packed 1 (s.bays.map fun y => y.repair.lanes.toNat))
  else if i = 0x2080 then
    (if sub = 2 then some (s.frank.meters.filter fun m => m.slot.isSome).length
      else if sub = 3 then some ((nub (s.frank.gforce.map fun e => e.1 % 64)).foldl (fun m c => m ||| 2 ^ c) 0)
      else if sub = 4 then some (packed 2 ((List.range s.size.bays).map s.guarF))
      else if sub = 5 then some s.guarSum
      else if sub = 6 then some (toGB (s.lowestD.getD 0))
      else if sub = 7 then some (s.now - s.vt)
      else none)
  else if i = 0x2090 && sub = 4 then some (s.skipLost x).evLost
  else if i = 0x2090 && sub = 6 then
    some (ofBytes (((s.events.queue[x.get 0x2090 5]?).map MgmtEvent.bytes).getD []))
  else none

/-- PCs of a bay with a run in progress, as a mask. -/
def State.runMask (s : State) (b : Nat) : Nat :=
  ((List.range 64).filter (s.bay b).train.running).foldl (fun m p => m ||| 2 ^ p) 0

/-- The narrowest read margin over the PCs in service (R341): the least eye width that their last runs gave. -/
def State.narrowest (s : State) (b : Nat) : Nat :=
  let l := (s.pcsInService b).flatMap fun pc => (getA (s.bay b).train.eye pc []).map fun w => (w, pc)
  match pick (fun e => e.1) l with
  | some e => min 255 e.1 + 256 * b2n ((s.bay b).train.running e.2)
  | none => 0

/-- The highest TCAL in use (R341); zero before any run. -/
def State.highestTcal (s : State) (b : Nat) : Int :=
  let l := ((s.pcsInService b).map fun pc => s.calRec b pc (s.setInUse b)).filter fun k => recState k != 0
  match l with
  | [] => 0
  | k :: ks => ks.foldl (fun m k => max m (recTcal k)) (recTcal k)

/-- Stale flags of a bay (R327, R358): sensors of quadrants with a run in progress, and the stack. -/
def State.staleFlags (s : State) (b : Nat) : Nat :=
  let t := (s.bay b).train
  ((List.range 4).filter fun q => (List.range 16).any fun i => t.running (16 * q + i)).foldl (fun m q => m ||| 2 ^ q)
    (s.bay b).therm.stale.toNat

/-- Withdrawal allowance of a bay (R379). -/
def State.allowance (s : State) (b : Nat) : Nat :=
  4 + sumN (((s.bay b).repair.raised.filter fun e => s.within24h e.1).map (·.2))

/-- Declarations of a bay in the last 24 h (R379). -/
def State.declarations (s : State) (b : Nat) : Nat := ((s.bay b).repair.declared.filter s.within24h).length

/-- Status of a bay (R248, R341, R358, R388). -/
def State.readBay (s : State) (b sub : Nat) : Option Nat :=
  let y := s.bay b
  let r := y.repair
  let t := y.therm
  match sub with
  | 0x01 => some r.state
  | 0x02 => some r.reason
  | 0x03 => some r.capacity
  | 0x04 => some r.pcsOut.toNat
  | 0x05 => some (s.runMask b)
  | 0x08 => some (s.narrowest b)
  | 0x09 => some (unsigned 16 (s.highestTcal b))
  | 0x0A => some r.carrel
  | 0x10 => some t.thermal
  | 0x11 => some t.level
  | 0x12 => some (packed 2 (t.readings.map (unsigned 16)))
  | 0x13 => some (unsigned 16 t.poll)
  | 0x14 => some (s.staleFlags b)
  | 0x15 => some (packed 1 (t.comps.map (·.toNat)))
  | 0x16 => some t.cause
  | 0x17 => some (if t.coolAt = 0 then 0 else min 255 (ceilDiv (t.coolAt - s.now) 100000000))
  | 0x18 => some r.withdrawn.toNat
  | 0x19 => some r.withdrawing.toNat
  | 0x1A => some r.fence
  | 0x1B => some r.health
  | 0x1C => some (min 255 (s.allowance b))
  | 0x1D => some (match y.train.window with | some w => w.1 | none => 0xFF)
  | 0x1F => some r.lanesLost
  | 0x20 => some (s.pointInUse b)
  | 0x21 => some (b2n y.sched.setB)
  | 0x22 => some (s.shiftState b)
  | 0x26 => some y.sched.maxOwed
  | 0x2A => some (ceilDiv (sumN ((s.cons.filter fun c => c.reserved.contains b).map (·.accBytes))) 1048576)
  | 0x2B => some (toGB (s.deliver b))
  | _ => none

/-- The live entry that software reads: STAGEIDX zero (R93). -/
def Entry.bytes (e : Entry) : List Byte :=
  [e.e0, e.e1, e.e2, e.e3, e.e4, e.e5, e.e6, e.e7].flatMap fun w => toBytes 8 w.toNat

/-- Shelf List objects (R92). The key reads zero unless the stage is valid. -/
def State.readShelf (s : State) (x : Session) (sub : Nat) : Option Nat :=
  if sub = 6 then some (if s.obj 0x2400 3 = 2 then s.obj 0x2400 6 else 0)
  else if sub = 0x0B then some (ofBytes (s.entry (x.get 0x2400 0x0A)).bytes)
  else if sub = 0x0D then some (s.groups fun e => e.state == 3).length
  else none

/-- Class objects (R274). -/
def State.readClass (s : State) (c sub : Nat) : Option Nat :=
  if sub = 2 && c = 0 then some 63
  else if sub = 0x0F then some ((List.range s.size.bays).foldl (fun m b => max m (s.latency b c)) 0)
  else if sub = 0x14 then some (if s.unmetered (.cls c) then 0 else unsigned 32 ((s.meter (.cls c)).tp / 1000))
  else if sub = 0x15 then
    some (match s.openBays.map fun b => s.inForce b c with
      | [] => 0
      | g :: gs => toGB (gs.foldl min g))
  else none

/-- Status of the Timetable 0x2700:06 (R276). -/
def State.tableStatus (s : State) : Nat :=
  if s.obj 0x2700 1 = 0 then 0
  else if s.tod.state = 0 then 1
  else if s.tod.state = 2 && !s.table.oper.isEmpty then 4
  else if s.table.waiting.isSome then 2
  else if s.table.oper.isEmpty then 0
  else 3

/-- Timetable objects (R276). -/
def State.readTable (s : State) (x : Session) (sub : Nat) : Option Nat :=
  let k := x.get 0x2700 0x0A
  if sub = 6 then some s.tableStatus
  else if sub = 7 then some s.table.operBase
  else if sub = 8 then some s.table.operCycle
  else if sub = 9 then some s.table.oper.length
  else if sub = 0x0B then some (ofBytes (gateBytes (s.table.entry k)))
  else if sub = 0x0C then some (ofBytes (((s.table.oper[k]?).map gateBytes).getD []))
  else none

/-- The 32 bytes of a Tally's state (R187, R215). -/
def State.tallyBytes (s : State) (n : Nat) : List Byte := (s.tallyWords n).flatMap fun w => toBytes 8 w.toNat

/-- Tally objects (R215). -/
def State.readTally (s : State) (x : Session) (i sub : Nat) : Option Nat :=
  if i = 0x2801 then
    (if sub = 3 then some (ofBytes (((s.tal.log[x.get 0x2801 2]?).map TallyLog.bytes).getD [])) else none)
  else if sub = 2 then some (ofBytes (s.tallyBytes (x.get 0x2800 1)))
  else if sub = 7 then some (s.tal.tallies.filter fun e => e.2.state = 1).length
  else if sub = 8 then some (s.tal.tallies.filter fun e => e.2.state = 2).length
  else if sub = 9 then some s.waiterSlots
  else if sub = 0x0D then some s.tod.state
  else none

/-- Block-wide thermal objects (R357). -/
def State.readTherm (s : State) (sub : Nat) : Option Nat :=
  let l := s.bays.map fun y => y.therm.hottest
  let top := l.foldl max (-32768)
  if sub = 1 then some (unsigned 16 top)
  else if sub = 2 then some (l.findIdx (· == top))
  else if sub = 3 then some (((List.range s.size.bays).filter fun b => (s.bay b).therm.level != 0).foldl (fun m b => m ||| 2 ^ b) 0)
  else if sub = 4 then some (b2n s.boot.slowReq)
  else none

/-- Training objects (R340). -/
def State.readTrain (s : State) (x : Session) (sub : Nat) : Option Nat :=
  let b := x.get 0x2B00 6
  let pc := x.get 0x2B00 7
  if sub = 9 then some (s.calRec b pc (x.get 0x2B00 8))
  else if sub = 0x0A then some (packed 1 ((getA (s.bay b).train.eye pc (List.replicate 5 0)) ++ [b2n ((s.bay b).train.running pc)]))
  else if sub = 0x0C then some (ofBytes (s.bay b).train.carrelRec)
  else none

/-- A hard-fault entry, H0 and H1 (R303). -/
def HardFault.bytes (h : HardFault) : List Byte :=
  toBytes 8 (h.bay * 2 ^ 59 + h.pc * 2 ^ 53 + h.gaddr * 2 ^ 27 + h.sym * 2 ^ 21 + h.band * 2 ^ 19 + h.load * 2 ^ 17) ++
  toBytes 8 (h.count % 2 ^ 32 * 2 ^ 32 + h.first % 2 ^ 32)

/-- A list of numbers filled up to a length. -/
def fillTo (n d : Nat) (l : List Nat) : List Nat := (l ++ List.replicate n d).take n

/-- Progress of the slowest pass over the bays that are not fenced, in 0.01% (R302). -/
def State.passProgress (s : State) : Nat :=
  match s.openBays.map fun b => s.passDone b * 10000 / s.passTotal b with
  | [] => 0
  | n :: ns => ns.foldl min n

/-- Integrity objects (R302). -/
def State.readInteg (s : State) (x : Session) (i sub : Nat) : Option Nat :=
  let b := x.get 0x2C10 1
  let l := s.lanes b (x.get 0x2C10 2)
  if i = 0x2C00 && sub = 2 then some s.passProgress
  else if i = 0x2C01 && sub = 2 then some (ofBytes (((s.mem.hard[x.get 0x2C01 1]?).map HardFault.bytes).getD []))
  else if i = 0x2C10 && sub = 3 then some (packed 1 (fillTo 2 0xFF l.erased))
  else if i = 0x2C10 && sub = 4 then some (s.sparesFree b (x.get 0x2C10 2))
  else if i = 0x2C10 && sub = 5 then some l.remapped
  else if i = 0x2C10 && sub = 6 then some (packed 4 l.counts)
  else if i = 0x2C10 && sub = 7 then some (packed 1 (fillTo 4 0xFF (s.bay b).train.carrelErased))
  else if 0x2C20 ≤ i && i ≤ 0x2C37 && sub != 0 then some (packed 8 ((s.bay (i - 0x2C20)).evid.bins.getD (sub - 1) []))
  else none

/-- Availability objects (R386). -/
def State.readRepair (s : State) (sub : Nat) : Option Nat :=
  if sub = 9 then some (packed 2 (s.bays.map fun y => y.repair.score))
  else if sub = 0x0D then some (packed 1 ((List.range s.size.bays).map fun b => min 255 (s.declarations b)))
  else if sub = 0x0E then some s.health.challenge.toNat
  else if sub = 0x12 then some s.windowsOpen
  else if sub = 0x16 then some (b2n s.boot.pendingImage.isSome)
  else none

/-- The value word of the selected counter or pair (R448, R449). -/
def State.counterWord (s : State) (c : Nat) : Nat :=
  if 1664 ≤ c then 0
  else if s.chained c then
    let lo := getA s.test.ctrs (c / 2 * 2) {}
    let hi := getA s.test.ctrs (c / 2 * 2 + 1) {}
    lo.count + hi.count * 2 ^ 48 + b2n hi.ovf * 2 ^ 96 + 2 ^ 97
  else
    let k := getA s.test.ctrs c {}
    k.count + b2n k.ovf * 2 ^ 96

/-- Counter, registered-item and Jostle objects (R449, R456, R469). -/
def State.readTest (s : State) (x : Session) (i sub : Nat) : Option Nat :=
  if i = 0x3680 && sub = 2 then some (s.counterWord (x.get 0x3680 1))
  else if i = 0x3680 && sub = 3 then some (if x.get 0x3680 1 = 0xFFFF then 0 else x.sampleAt)
  else if i = 0x3680 && sub = 6 then some (s.test.frozen.getD 0)
  else if i = 0x3690 && sub = 6 then some (packed 8 (((s.test.items[x.get 0x3690 5]?).getD []).map (·.toNat)))
  else if i = 0x3800 && sub = 4 then
    some (match s.test.jostleAt with
      | some t => ceilDiv (t + s.obj 0x3800 2 * 1000000000 - s.now) 1000000000
      | none => 0)
  else none

/-- Determinism and Daybook objects (R413). -/
def State.readDay (s : State) (sub : Nat) : Option Nat :=
  if sub = 0x0B then some s.replayStatus
  else if sub = 0x0C then some s.firstDivergence
  else if sub = 0x12 then some (ofBytes s.day.selfTest)
  else none

/-- Data Port objects, as a session sees them (R437). -/
def State.readPort (s : State) (k : Sess) (sub : Nat) : Option Nat :=
  let d := s.dport
  if sub = 1 then some d.target
  else if sub = 2 then some d.addr
  else if sub = 5 then some (if d.holder.isSome then d.length else 0)
  else if sub = 6 then
    some (if d.holder == some k then d.dir else if d.holder.isSome then 3 else if d.refused then 4 else 0)
  else if sub = 7 then some d.burst
  else none

/-- The computed value of an object: none where the dictionary holds it. -/
def State.computed (s : State) (x : Session) (i sub : Nat) : Option Nat :=
  if i < 0x2000 then s.readIdent x i sub
  else if i ≤ 0x2031 then s.readBoot i sub
  else if i < 0x2100 then s.readWork x i sub
  else if i < 0x2118 then (if sub = 0x0C then some (s.wanted (i - 0x2100)) else none)
  else if i < 0x2218 then s.readBay (i - 0x2200) sub
  else if i = 0x2400 then s.readShelf x sub
  else if i < 0x2640 then s.readClass (i - 0x2600) sub
  else if i = 0x2700 then s.readTable x sub
  else if i ≤ 0x2801 then s.readTally x i sub
  else if i = 0x2A00 then s.readTherm sub
  else if i = 0x2B00 then s.readTrain x sub
  else if i ≤ 0x2C37 then s.readInteg x i sub
  else if i = 0x2D00 then s.readRepair sub
  else if i = 0x2D01 then s.readIdent x i sub
  else if i = 0x2E00 then s.readDay sub
  else if 0x3680 ≤ i && i < 0x3900 then s.readTest x i sub
  else if i = 0x5F00 then s.readPort x.key sub
  else none

/-- The bytes that a read of an object returns (R416, R417). -/
def State.readObj (s : State) (x : Session) (r : ObjDef) (i sub : Nat) : List Byte :=
  toBytes r.size (if r.sel then x.get i sub else (s.computed x i sub).getD (s.obj i sub))

end Sys2Proof.Machine
end

