-- ==== Sys2Proof/Machine/Settings.lean ====
section
/-! DEFINITION. What a write of each Catalogue object does, after its access, privilege, length and range have been checked (R19, R31,
R62, R65, R81, R213, R215, R247, R250, R251, R269, R270, R276, R300, R301, R302, R311, R331, R337, R340, R344, R357, R360, R361, R367,
R369, R371, R374, R378, R379, R385, R386, R389, R390, R392, R401, R406, R407, R411, R413, R421, R443, R445, R447, R451, R459, R469). -/

namespace Sys2Proof.Machine

/-! ### Sessions and keys (R420, R421, R441) -/

/-- The 13 bytes that a login signs (R421). -/
def loginText (chal : BitVec 64) (level : Nat) : List Byte := [0x4B, 0x5A, 0x50, 0x56] ++ toBytes 8 chal.toNat ++ toBytes 1 level

/-- The coding of a login (R421). -/
def loginCoded (bs : List Byte) : Bool :=
  let level := (bs.getD 0 0).toNat
  let slot := (bs.getD 1 0).toNat
  (level == 1 || level == 2) && bs.getD 2 0 == 0 && bs.getD 3 0 == 0 &&
  (if level = 1 then slot < 8 && ((bs.drop 4).take 96).all (· == 0) else slot == 0)

/-- The key of a login and whether the block trusts it: a Service key slot that is not empty, or a key whose digest is fused (R421). -/
def State.loginKey (s : State) (bs : List Byte) : List Byte × Bool :=
  if bs.getD 0 0 = 1 then
    let k := getA s.keys (Objects.key 0x1F01 ((bs.getD 1 0).toNat + 1)) 0
    (toBytes 96 k, k != 0)
  else
    let k := (bs.drop 4).take 96
    (k, ofBytesBe (sha384 k) == Config.keyDigest.toNat)

/-- A login (R421): every attempt of good coding draws a new challenge; the third that is refused locks the session out for 10 s. -/
def State.loginTry (s : State) (x : Session) (bs : List Byte) : Verdict :=
  if !loginCoded bs then s.abort abRange
  else
    let level := (bs.getD 0 0).toNat
    let text := loginText x.chal level
    let (c, s) := s.draw
    let x := { x with chal := c }
    if s.now < x.lockTill then (s.setSession x).abort abHeld
    else
      let (key, trusted) := s.loginKey bs
      if trusted && ecdsaValid key ((bs.drop 100).take 96) text then (s.setSession { x with priv := level }).done
      else if x.bad < 2 then (s.setSession { x with bad := x.bad + 1 }).abort abLogin
      else (s.setSession { x with bad := 0, lockTill := s.now + 10000000000 }).abort abLogin

/-- Writes a key slot of the nonvolatile store (R383, R424). -/
def State.setKey (s : State) (i sub v : Nat) : State := { s with keys := setA s.keys (Objects.key i sub) v 0 }

/-- Writes of 0x1000 to 0x1FFF (R420, R421, R424, R441). -/
def State.writeIdent (s : State) (x : Session) (i sub v : Nat) (bs : List Byte) : Verdict :=
  if i = 0x1F00 && sub = 2 then s.loginTry x bs
  else if i = 0x1F00 then (s.setSession { x with priv := 0 }).done
  else if i = 0x1F01 then (s.setKey i sub v).done
  else (s.setObj i sub v).done

/-! ### Bring-up, the clock plan, power and ports (R31, R62, R65, R311, R337, R389) -/

/-- Writes of 0x2000 to 0x2031. A block reset follows the answer (DEDUCED, log 28). -/
def State.writeBoot (s : State) (i sub v : Nat) : Verdict :=
  let hold := s.boot.code == 0x10
  if i = 0x2000 && sub = 2 then
    if v = 1 then s.try_ s.proceed else { st := s, reset := true }
  else if i = 0x2001 || i = 0x2010 then s.unless (!hold) abState (s.setObj i sub v)
  else if i = 0x2002 then s.unless (!s.portsDisabled) abState (s.setObj i sub v)
  else if i = 0x2020 then s.unless (v < 300 || 640 < v) abRange (s.setObj i sub v)
  else (s.setObj i sub v).done

/-- A write of a port's configuration word: clearing bit 0 takes the port out of service; setting it again brings it back, with its
credits advertised afresh, unless its island failed Roll Call (R44, R62, R203, R313). -/
def State.writePort (s : State) (p v : Nat) : State :=
  let was := bit (s.portCfg p) 0
  let s := s.setObj 0x2040 (p + 1) v
  if was && !bit v 0 then (s.setPort p { s.port p with up := false }).dropPort p
  else if !was && bit v 0 && s.running && s.twins.roster.getLsbD (216 + p) then (s.enablePort p).flushFwr
  else s

/-- Writes of 0x2040 to 0x2090. A new batch limit holds at once for what is staged (R186). -/
def State.writeWork (s : State) (i sub v : Nat) : Verdict :=
  if i = 0x2040 then (s.writePort (sub - 1) v).done
  else if i = 0x2070 && sub = 2 then ((s.setObj i sub v).applyLimit v).done
  else (s.setObj i sub v).done

/-! ### Bays, the Shelf List, classes and the Timetable (R81, R241, R247, R250, R251, R269, R270, R276, R390) -/

/-- Writes of 0x2100+b (R241, R247, R390). -/
def State.writeBay (s : State) (b sub v : Nat) : Verdict :=
  if sub = 5 then s.unless (s.obj (0x2100 + b) 4 ≤ v) abRange (s.setObj (0x2100 + b) 5 v)
  else if sub = 0x0C then s.unless (s.determinism && v != s.pointInUse b) abState (s.requestShift b v)
  else (s.setObj (0x2100 + b) sub v).done

/-- A second key write that the Clerk may make after its own first (R81, R92): it ends the attempt. -/
def State.clerkPair (s : State) (i sub : Nat) : Bool :=
  i == 0x2400 && sub == 8 && s.obj 0x2400 3 == 4 &&
  (match s.shelf.commit with | some c => c.first == some true && c.drain.isNone | none => false)

/-- Writes of 0x2400 (R81, R83). -/
def State.writeShelf (s : State) (clerk : Bool) (sub v : Nat) : Verdict :=
  if sub = 2 then (if v = 1 then s.stageClear else s.stageValidate).done
  else if sub = 7 then s.try_ (s.firstKey v clerk)
  else if sub = 8 then s.try_ (s.secondKey v clerk)
  else if sub = 0x0C then (s.setObj 0x2400 sub v).reguarantee.done
  else (s.setObj 0x2400 sub v).done

/-- The sum of a share over the enabled classes, were class `c` to hold `v` of it (R269). -/
def State.minSum (s : State) (c sub v : Nat) : Nat :=
  sumN ((List.range 64).map fun k => if !s.clsEnabled k then 0 else if k = c then v else s.obj (0x2600 + k) sub)

/-- The guarantees were to rise above what some bay can deliver (R270). -/
def State.guarTooHigh (s t : State) : Bool :=
  s.guarSum < t.guarSum && ((List.range s.size.bays).any fun b => !s.fenced b && s.guarD b < t.guarSum * 1000)

/-- Writes of 0x2600+c (R250, R251, R259, R269, R270, R274). -/
def State.writeClass (s : State) (c sub v : Nat) : Verdict :=
  let i := 0x2600 + c
  let t := s.setObj i sub v
  if sub = 1 then
    let busy := s.clsEnabled c && !bit v 0 && s.cons.any fun k => clsOf k.msg == c && k.state == .active
    s.unless (busy || s.guarTooHigh t) abState (s.keepLevels c fun u => u.setObj i sub v).reguarantee
  else if sub = 5 then s.unless (v < s.staticPrio c) abRange t
  else if sub = 6 then s.unless (s.obj i 8 < v) abRange (s.changeRate c sub v)
  else if sub = 7 || sub = 9 then (s.changeRate c sub v).done
  else if sub = 8 then s.unless (v < s.obj i 6) abRange (s.changeRate c sub v)
  else if sub = 0x0A then s.unless (s.guarTooHigh t) abState (s.keepLevels c fun u => u.setObj i sub v).reguarantee
  else if sub = 0x0B then s.unless (s.obj i 0x0C < v || 40960 < s.minSum c sub v) abRange t
  else if sub = 0x0C then s.unless (v < s.obj i 0x0B) abRange t
  else if sub = 0x0D then s.unless (s.obj i 0x0E < v || 3584 < s.minSum c sub v) abRange t
  else if sub = 0x0E then s.unless (v < s.obj i 0x0D) abRange t
  else t.done

/-- Writes of 0x2700 (R262, R263, R276). -/
def State.writeTable (s : State) (x : Session) (sub v : Nat) : Verdict :=
  if sub = 1 then (s.setObj 0x2700 1 v).applyTable.done
  else if sub = 5 then
    match s.commitTable with
    | some t => t.done
    | none => (s.bump 0x2700 0x0D).abort abState
  else if sub = 0x0B then
    (s.modTable fun t => t.setEntry (x.get 0x2700 0x0A) (v % 2 ^ 64) (v / 2 ^ 64)).done
  else (s.setObj 0x2700 sub v).done

/-! ### Tallies, temperatures and training (R212, R213, R215, R325, R331, R340, R344) -/

/-- Writes of 0x2800 (R212, R213, R215). -/
def State.writeTally (s : State) (x : Session) (sub v : Nat) : Verdict :=
  let n := x.get 0x2800 1
  if sub = 3 then s.try_ (s.debugSet n v)
  else if sub = 4 then (s.forcedFree n).done
  else if sub = 5 then (if 8 ≤ v || v / 2 = 3 then s.abort abRange else s.try_ (s.createShared n v))
  else if sub = 0x0E then s.try_ (s.configTally n 0x19 v)
  else if sub = 0x0F then s.try_ (s.configTally n 0x1A v)
  else (s.setObj 0x2800 sub v).done

/-- A PC is live: it is in service, trained and outside a retrain window (R329, R331). -/
def State.pcLive (s : State) (b pc : Nat) : Bool :=
  s.pcInService b pc && !s.inWindow b pc && ((s.bay b).repair.state == 3 || (s.bay b).repair.state == 4)

/-- A write of a calibration record is accepted (R331). -/
def State.calOk (s : State) (b pc set k : Nat) : Bool :=
  bits k 511 480 == crc32c (toBytes 60 k) && recOpt k * 2 + recRelaxed k == set && recState k != 1 &&
  bits k 461 459 == 0 && bits k 359 358 == 0 && !(set == s.setInUse b && s.pcLive b pc)

/-- An accepted record is stored as restored, with its CRC (R331). -/
def State.storeCal (s : State) (b pc set k : Nat) : State := s.putRec b pc set (sealRecord (recSetState k 2))

/-- A Carrel record checks (R331). -/
def carrelRecOk (bs : List Byte) : Bool := ofBytes (bs.drop 1020) == crc32c (bs.take 1020)

/-- Stores a Carrel record. -/
def State.storeCarrel (s : State) (b : Nat) (bs : List Byte) : State := s.modTrain b fun t => { t with carrelRec := bs }

/-- Writes of 0x2B00 (R325, R331, R340). -/
def State.writeTrain (s : State) (x : Session) (sub v : Nat) (bs : List Byte) : Verdict :=
  let b := x.get 0x2B00 6
  let pc := x.get 0x2B00 7
  let set := x.get 0x2B00 8
  if sub = 9 then s.unless (!s.calOk b pc set v) abContent (s.storeCal b pc set v)
  else if sub = 0x0B then (s.requestRun b pc).done
  else if sub = 0x0C then s.unless (!carrelRecOk bs) abContent (s.storeCarrel b bs)
  else (s.setObj 0x2B00 sub v).done

/-! ### Integrity and the checker test mode (R296, R300 to R302) -/

/-- A write of the erasure list of the selected PC (R296, R302). -/
def State.writeErasures (s : State) (x : Session) (bs : List Byte) : Verdict :=
  let b := x.get 0x2C10 1
  let pc := x.get 0x2C10 2
  let l := bs.map (·.toNat)
  s.unless (l.any fun n => 35 < n && n != 0xFF) abRange (s.setLanes b { s.lanes b pc with erased := nub (l.filter (· != 0xFF)) })

/-- The hall addresses of a consignment: tiles, sources, weights and digests. -/
def Con.addrs (c : Con) : List Nat :=
  let n := List.range c.slip.ntiles
  (if c.slip.sorting.isSome then n.map c.slip.tileAddr else []) ++ (if c.slip.retrieval.isSome then n.map c.slip.srcAddr else []) ++
  (match c.slip.postmark with | some (dg, ws) => ws ++ n.map (fun i => dg + 32 * i) | none => [])

/-- A group may be the test window, and no consignment touches it (R300, R301). -/
def State.windowOk (s : State) (w : Nat) : Bool :=
  let e := s.entry w
  let segs := s.groupSegs w
  e.state == 1 && (s.layout w).s0 == w && !e.mirror && !e.pktbuf && !e.ledger &&
  !s.cons.any fun c => c.addrs.any fun a => segs.contains (hallOffset a / 2 ^ 24)

/-- The test mode ends on the window: its valid bits are cleared (R301). -/
def State.closeWindow (s : State) : State :=
  let w := s.obj 0x2C60 2
  (s.groupSegs w).foldl (fun t i => t.clearValid (i * 4096) 4096) s

/-- A test write's stack granule: its hall granule number where it lies in the enabled window. -/
def State.testGranule (s : State) (addr : Nat) : Option Nat :=
  let off := hallOffset addr
  if s.obj 0x2C60 1 = 1 && hallBlock addr = s.blockNo && addr < 2 ^ 54 && off / 2 ^ 24 < s.size.segments && s.inTestWindow (off / 2 ^ 24) &&
      off - (s.layout (off / 2 ^ 24)).s0 * 2 ^ 24 < (s.layout (off / 2 ^ 24)).cap then some (off / 32)
  else none

/-- A raw word in the stack: data, and the check symbols as written where they are not the granule's own (R300). -/
def State.putRaw (s : State) (g : Nat) (data : List Byte) (chk : BitVec 32) : State :=
  let (_, pc, ga) := s.gplace g
  s.modMem fun m =>
    let m := stackWrite (dropLine (writeBack m (g / 2)) (g / 2)) g data
    if chk = granuleChecks data (addrTag pc ga) then m else { m with chk := putA m.chk g chk }

/-- The report of a decode at 0x2C60:09 (R302). -/
def decodeReport (r : RsResult) : Nat :=
  let code := if r.ok then (if r.fixes.isEmpty then 0 else 1) else if r.virt then 3 else 2
  let at_ := if r.ok then r.fixes else []
  code + 256 * at_.length + 65536 * packed 1 (fillTo 5 0xFF at_)

/-- Reads a raw word and decodes it, with the erasure mask (R300, R302). -/
def State.readRaw (s : State) (g : Nat) : State :=
  let (b, pc, ga) := s.gplace g
  let w := s.storedWord g
  let era := nub ((s.lanes b pc).erased.map posOf ++ s.windowErasures g)
  let r := decodeGranule w.1 w.2 (addrTag pc ga) era []
  let s := s.noteDecode b pc ga r false
  let s := if r.ok then s else s.bin b pc 4
  (s.setObj 0x2C60 6 (w.2.toNat + 2 ^ 32 * ofBytes w.1)).setObj 0x2C60 9 (decodeReport r)

/-- A Carrel test line: 72 symbols, checks first; zero where none has been written (log 5). -/
def State.testLine (s : State) (k : Nat) : List Byte := getA s.mem.testLines k (zeros 72)

/-- The tag of a Carrel test line: its line index in the Carrel (R286). -/
def testTag (k : Nat) : Nat := (Config.trainingBase + k % 2 ^ 24) % 2 ^ 26

/-- An action on a Carrel test line (R286, R300, R302); its decode counts in the bin of the bay's PC 0 (R299, log 48). -/
def State.lineAction (s : State) (k v : Nat) : State :=
  let word := toBytes 72 (s.obj 0x2C60 6)
  let put (bs : List Byte) : State := s.modMem fun m => { m with testLines := setA m.testLines k bs (zeros 72) }
  if v = 1 then put word
  else if v = 2 then
    let data := word.drop 8
    let own := (rsChecks 8 (data.map (·.toNat)) (testTag k)).map (BitVec.ofNat 8)
    put (List.zipWith (fun (a b : Byte) => a ^^^ b) own (word.take 8) ++ data)
  else
    let b := k / 2 ^ 24
    let line := s.testLine k
    let r := rsDecode 8 (line.map (·.toNat)) (testTag k) (s.bay b).train.carrelErased
    let s := if r.ok && r.fixes.isEmpty then s else s.bin b 0 (if r.ok then 5 else 6)
    (s.setObj 0x2C60 6 (ofBytes line)).setObj 0x2C60 9 (decodeReport r)

/-- A write outside the test window, or an enabling of the mode, that the code lock refuses (R301, R376). -/
def State.codeLock (s : State) : Verdict := (s.hardLimit 5).abort abState

/-- A write of 0x2C60:07 (R300, R301). -/
def State.testAction (s : State) (x : Session) (v : Nat) : Verdict :=
  let refuse : Verdict := if v = 3 then s.abort abState else s.codeLock
  if x.get 0x2C60 3 = 1 then (if s.obj 0x2C60 1 = 1 then (s.lineAction (x.get 0x2C60 5) v).done else refuse)
  else match s.testGranule (x.get 0x2C60 4) with
    | none => refuse
    | some g =>
      let word := toBytes 36 (s.obj 0x2C60 6)
      let data := word.drop 4
      let chk := BitVec.ofNat 32 (ofBytes (word.take 4))
      let (_, pc, ga) := s.gplace g
      if v = 1 then (s.putRaw g data chk).done
      else if v = 2 then (s.putRaw g data (chk ^^^ granuleChecks data (addrTag pc ga))).done
      else (s.readRaw g).done

/-- Writes of 0x2C00 to 0x2C60 (R296, R300 to R302). -/
def State.writeInteg (s : State) (x : Session) (i sub v : Nat) (bs : List Byte) : Verdict :=
  let on := s.obj 0x2C60 1 == 1
  if i = 0x2C00 && sub = 0x0D then
    ((List.range s.size.bays).foldl (fun t b => t.modBay b fun y =>
      { y with evid := { y.evid with bins := List.replicate 12 (List.replicate 7 0) } }) s).done
  else if i = 0x2C10 then s.writeErasures x bs
  else if i = 0x2C60 && sub = 1 then
    if v = b2n on then s.done
    else if v = 0 then (s.closeWindow.setObj i sub 0).done
    else if s.windowOk (s.obj 0x2C60 2) then (s.setObj i sub 1).done
    else s.codeLock
  else if i = 0x2C60 && sub = 2 && on then
    if v = s.obj i sub then s.done
    else if s.windowOk v then (s.closeWindow.setObj i sub v).done
    else s.codeLock
  else if i = 0x2C60 && sub = 7 then s.testAction x v
  else (s.setObj i sub v).done

/-! ### Availability (R360, R361, R367 to R371, R374, R378, R379, R385, R386) -/

/-- The dirty Carrel lines of a bay go to its stack (R368). -/
def State.flushBay (s : State) (b : Nat) : State :=
  s.modMem fun m => (m.carrel.filter fun c => c.dirty != 0 && (s.gplace (2 * c.line)).1 == b).foldl (fun m c => writeBack m c.line) m

/-- An ordered fence, for cause 1 or 2 (R367, R368). -/
def State.orderFence (s : State) (b cause : Nat) : State := (s.fenceBay b cause).flushBay b

/-- A write of 0x2D00:0A (R367, R378). -/
def State.writeFence (s : State) (b : Nat) : Verdict :=
  if s.fenced b then s.abort abState
  else if s.bays.any fun y => y.repair.fence == 1 then (s.hardLimit 8).abort abState
  else (s.orderFence b 1).done

/-- A write of 0x2D00:0B lifts an ordered fence: the bay sweeps its PCs, and stays fenced where the sweep fails (R369). A bay that tripped
meanwhile stays fenced by logic (R354, R472), and one whose stack bring-up has not yet driven has nothing to sweep. -/
def State.writeLift (s : State) (b : Nat) (rep : StepReport) : Verdict :=
  let cause := (s.bay b).repair.fence
  let lift (t : State) : Verdict :=
    let t := t.modBay b fun y => { y with repair := { y.repair with fence := 0 } }
    ((t.event 0x0031 b cause).markTiming).reguarantee.done
  if cause != 1 && cause != 2 then s.abort abState
  else if !(s.bay b).therm.live then (s.modBay b fun y => { y with repair := { y.repair with fence := 3 } }).done
  else if (s.bay b).repair.state < 2 then lift s
  else match s.sweepBay b rep false with
    | (t, false) => (t.modBay b fun y => { y with repair := { y.repair with reason := 3 } }).done
    | (t, true) => lift t

/-- A declaration that R361 refuses whatever its count. -/
def State.declareRefused (s : State) (b pc : Nat) : Bool :=
  let r := (s.bay b).repair
  r.withdrawing.getLsbD pc || r.withdrawn.getLsbD pc || r.pcsOut.getLsbD pc || s.fenced b ||
  ((s.pcsInService b).filter fun p => !r.withdrawing.getLsbD p).length ≤ 32

/-- A write of 0x2D00:0C (R360, R361, R379). -/
def State.writeDeclare (s : State) (v : Nat) : Verdict :=
  let b := v / 64
  let pc := v % 64
  if s.declareRefused b pc then s.abort abState
  else if s.allowance b ≤ s.declarations b then (s.hardLimit 9).abort abState
  else
    ((s.modBay b fun y =>
      { y with repair := { y.repair with withdrawing := y.repair.withdrawing ||| BitVec.ofNat 64 (2 ^ pc)
                                         declared := s.now :: y.repair.declared } }).settleWithdrawals.reguarantee).done

/-- The thresholds stand in the order of R385. -/
def State.thresholdsOk (s : State) : Bool :=
  s.obj 0x2D00 3 < s.obj 0x2D00 4 && s.obj 0x2D00 5 < s.obj 0x2D00 6 && s.obj 0x2D00 5 < s.obj 0x2D00 3

/-- A write of 0x2D00:15 (R371). -/
def State.writeRejoin (s : State) : Verdict :=
  let w := s.twins
  s.unless (!(w.state = 1 || w.state = 2) || w.rejoin != 0 || 3 ≤ w.fails) abState (s.modTwins fun w => { w with rejoin := 1 })

/-- Writes of 0x2D00 and 0x2D01. -/
def State.writeRepair (s : State) (i sub v : Nat) (rep : StepReport) : Verdict :=
  if i = 0x2D01 then (s.setKey i sub v).done
  else if 3 ≤ sub && sub ≤ 6 then
    let t := s.setObj i sub v
    s.unless (!t.thresholdsOk) abRange t
  else if sub = 0x0A then s.writeFence v
  else if sub = 0x0B then s.writeLift v rep
  else if sub = 0x0C then s.writeDeclare v
  else if sub = 0x13 then s.unless (v = 1 && !s.portsDisabled) abState (s.setObj i sub v)
  else if sub = 0x15 then s.writeRejoin
  else (s.setObj i sub v).done

/-! ### The Daybook, replay, pause and Postmark (R392, R401, R406, R407, R411, R413) -/

/-- Writes of 0x2E00. -/
def State.writeDay (s : State) (sub v : Nat) : Verdict :=
  if sub = 2 || sub = 3 then s.unless (s.obj 0x2E00 1 = 1) abState (s.setObj 0x2E00 sub v)
  else if sub = 4 then s.unless (s.boot.code != 0x10) abState (s.setObj 0x2E00 sub v)
  else if sub = 7 then s.beginRun.done
  else if sub = 0x0A then s.try_ (s.selectReplay v)
  else if sub = 0x0D then s.try_ (if v = 1 then s.requestPause else s.resume)
  else if sub = 0x11 then s.postmarkTest.done
  else (s.setObj 0x2E00 sub v).done

/-! ### Counters, registered items and Jostle (R443 to R451, R457 to R460, R469) -/

/-- Clears a counter. -/
def State.clearCtr (s : State) (c : Nat) : State := { s with test := { s.test with ctrs := delA s.test.ctrs c } }

/-- A write of a control word (R443, R447). -/
def State.writeCtrl (s : State) (c v : Nat) : Verdict :=
  let ev := bits v 15 0
  let bad := (bit v 19 && c % 2 == 0) || (ev != 0 && !eventOfKind (c < 1536) ev)
  let t := s.setObj (0x3000 + c) 1 v
  s.unless bad abRange (if bit v 19 == bit (s.obj (0x3000 + c) 1) 19 then t else (t.clearCtr (c - 1)).clearCtr c)

/-- Writes of 0x3000+c (R443, R445). -/
def State.writeCounter (s : State) (c sub v : Nat) : Verdict :=
  let i := 0x3000 + c
  if sub = 1 then s.writeCtrl c v
  else
    let bad := (sub = 3 && s.size.ports ≤ bits v 29 24) || (sub = 4 && s.obj i 5 < v) || (sub = 5 && v < s.obj i 4)
    s.unless bad abRange (s.setObj i sub v)

/-- Freeze, resume and clear of every counter, 8 Registry cycles after the write's execution (R451; log 29). -/
def State.counterControl (s : State) (v : Nat) : State :=
  let s := s.pass 8
  if v = 1 then { s with test := { s.test with frozen := some (s.test.frozen.getD s.time) } }
  else if v = 2 then { s with test := { s.test with frozen := none } }
  else { s with test := { s.test with ctrs := [] } }

/-- Clears the selected counter or pair (R447, R448, R469). -/
def State.clearSelected (s : State) (c : Nat) : State :=
  if 1664 ≤ c then s
  else if s.chained c then (s.clearCtr (c / 2 * 2)).clearCtr (c / 2 * 2 + 1)
  else s.clearCtr c

/-- The eye width that bounds a KIND 5 offset: RWID or WWID of the byte lane in the record of the set in use (R459). -/
def State.offsetWidth (s : State) (w : Nat) : Nat :=
  let b := jSel w % 32
  let pc := bits (jSel w) 10 5
  let k := s.calRec b pc (s.setInUse b)
  (if bit (jSel w) 14 then recWwid k else recRwid k).getD (bits (jSel w) 13 11) 0

/-- A slot breaks a range of R457 or a condition of R459. Bits of SEL and MAG that a KIND does not name are reserved (DEDUCED, log 30). -/
def State.slotBad (s : State) (w : Nat) : Bool :=
  let sel := jSel w
  let mag := jMag w
  let off := signed 6 (mag % 64)
  let body := match jKind w with
    | 0 => false
    | 1 => 263 < sel || !s.size.hasIsland sel || mag = 0 || 4 < mag
    | 2 => s.size.ports ≤ bits sel 5 0 || bits sel 7 6 = 1 || 255 < sel || mag = 0 || 1024 < mag
    | 3 => s.size.bays ≤ sel || mag = 0 || 1024 < mag
    | 4 => s.size.bays ≤ bits sel 4 0 || 4095 < sel || mag = 0 || 15 < mag
    | 5 => s.size.bays ≤ bits sel 4 0 || 4 < bits sel 13 11 || 32767 < sel || 63 < mag || jPexp w != 0 || off < -16 || 16 < off ||
        (s.offsetWidth w / 2 : Nat) - (4 : Int) < off.natAbs
    | _ => true
  jKind w != 0 && (body || 16 < jPexp w || bits w 26 0 != 0)

/-- Enables Jostle: every generator is seeded, and KIND 5 offsets begin to slew in (R458 to R460). -/
def State.startJostle (s : State) : State :=
  let gens := (List.range 16).map fun i => (i, lfsrSeed (BitVec.ofNat 64 (s.obj 0x3800 3) ^^^ BitVec.ofNat 64 i))
  let olds := (List.range 16).map fun i =>
    let w := s.obj 0x3810 (i + 1)
    (i, w, s.curPoints (jSel w % 32) (bits (jSel w) 10 5))
  let t : State := { (s.setObj 0x3800 1 1).setObj 0x3800 6 0 with
    test := { s.test with jostleAt := some s.now, jostleGen := gens, jostleEnded := [] } }
  (olds.filter fun e => jKind e.2.1 == 5).foldl (fun u e =>
    (u.jActs e.1 e.2.1).2.slewFrom (jSel e.2.1 % 32) (bits (jSel e.2.1) 10 5) e.2.2) t

/-- A write of 0x3800:01 (R459, R460). Enabling again while enabled changes nothing (DEDUCED, log 30). -/
def State.writeJostle (s : State) (v : Nat) : Verdict :=
  if v = 0 then s.endJostle.done
  else if s.test.jostleAt.isSome then s.done
  else if !s.running || s.pausing then s.abort abState
  else
    let mask := ((List.range 16).filter fun i => s.slotBad (s.obj 0x3810 (i + 1))).foldl (fun m i => m ||| 2 ^ i) 0
    if mask = 0 then s.startJostle.done else (s.setObj 0x3800 6 mask).abort abRange

/-- Writes of 0x3680 to 0x3810. -/
def State.writeTest (s : State) (x : Session) (i sub v : Nat) : Verdict :=
  if i = 0x3680 && sub = 4 then (s.counterControl v).done
  else if i = 0x3680 && sub = 5 then (s.clearSelected (x.get 0x3680 1)).done
  else if i = 0x3800 && sub = 1 then s.writeJostle v
  else if i = 0x3810 then
    if s.test.jostleAt.isSome then s.abort abState else s.unless (bits v 26 0 != 0) abRange (s.setObj i sub v)
  else (s.setObj i sub v).done

/-! ### All objects -/

/-- What an accepted write of an object does. `rep` is what the hardware finds where a fence is lifted; the Data Port's own objects
are not written here. -/
def State.effect (s : State) (x : Session) (i sub v : Nat) (bs : List Byte) (rep : StepReport) : Verdict :=
  if i < 0x2000 then s.writeIdent x i sub v bs
  else if i < 0x2040 then s.writeBoot i sub v
  else if i < 0x2100 then s.writeWork i sub v
  else if i < 0x2200 then s.writeBay (i - 0x2100) sub v
  else if i = 0x2400 then s.writeShelf (sessClerk x.key) sub v
  else if i < 0x2700 then s.writeClass (i - 0x2600) sub v
  else if i = 0x2700 then s.writeTable x sub v
  else if i < 0x2A00 then s.writeTally x sub v
  else if i = 0x2A00 then (if sub = 6 then s.readSensors else s.setObj i sub v).done
  else if i = 0x2B00 then s.writeTrain x sub v bs
  else if i < 0x2D00 then s.writeInteg x i sub v bs
  else if i < 0x2E00 then s.writeRepair i sub v rep
  else if i = 0x2E00 then s.writeDay sub v
  else if i < 0x3680 then s.writeCounter (i - 0x3000) sub v
  else s.writeTest x i sub v

end Sys2Proof.Machine
end

