-- ==== Sys2Proof/Machine/DataPort.lean ====
section
/-! DEFINITION. The Data Port: its hold, its targets and their contents, and the expulsion orders that arrive over it (R80, R81, R303,
R331, R340, R372, R380 to R382, R400, R401, R409, R410, R434 to R437). -/

namespace Sys2Proof.Machine

/-- Changes the Data Port. -/
def State.modPort (s : State) (f : DataPort → DataPort) : State := { s with dport := f s.dport }

/-- The hold of the Data Port ends, and content received and not judged is discarded (R434, R436). -/
def State.releasePort (s : State) : State := s.modPort fun d => { d with holder := none, content := [], length := 0, whole := false }

/-- A hold without an access for 10 s has ended (R434). -/
def State.lapsePort (s : State) : State :=
  if s.dport.holder.isSome && s.dport.used + 10000000000 ≤ s.now then s.releasePort else s

/-! ### Expulsion orders (R380 to R382) -/

/-- The first check of R381 that an order fails: 0 where it is accepted. -/
def State.orderCheck (s : State) (bs : List Byte) : Nat :=
  let w (i : Nat) : Nat := ofBytes ((bs.drop (8 * i)).take 8)
  let kind := bits (w 0) 31 24
  let tgt := bits (w 0) 23 16
  let count := bits (w 0) 15 8
  let signers := bitsSet 5 (w 0)
  let key (i : Nat) : Nat := getA s.keys (Objects.key 0x2D01 (i + 1)) 0
  if bs.length != 544 || bits (w 0) 63 32 != 0x4B5A4F52 || kind = 0 || 3 < kind || bits (w 0) 7 5 != 0 || w 1 / 4096 != 0 ||
      [3, 4, 5, 6, 7].any (fun i => w i != 0) then 1
  else if w 1 != s.blockNo then 2
  else if w 2 != s.health.challenge.toNat then 3
  else if signers.length < 3 then 4
  else if signers.any fun i => key i == 0 then 5
  else if signers.any fun i => !ecdsaValid (toBytes 96 (key i)) ((bs.drop (64 + 96 * i)).take 96) (bs.take 64) then 6
  else if kind = 1 && (s.size.bays ≤ tgt || s.fenced tgt || count != 0) then 7
  else if kind = 2 && (s.size.bays ≤ tgt || count = 0 || 64 < count) then 7
  else if kind = 3 && (tgt != 0 || count != 0) then 7
  else 0

/-- An expulsion order is decided and takes effect (R381, R382). -/
def State.expel (s : State) (bs : List Byte) : State :=
  let code := s.orderCheck bs
  if code != 0 then (s.bump 0x2D00 0x10).setObj 0x2D00 0x11 code
  else
    let o0 := ofBytes (bs.take 8)
    let b := bits o0 23 16
    let (c, s) := (s.bump 0x2D00 0x0F).draw
    let s : State := { s with health := { s.health with challenge := c } }
    if bits o0 31 24 = 1 then s.orderFence b 2
    else if bits o0 31 24 = 2 then
      s.modBay b fun y => { y with repair := { y.repair with raised := (s.now, bits o0 15 8) :: y.repair.raised } }
    else s.stop

/-! ### Targets (R435) -/

/-- Bytes of the PC records before the Carrel records of target 0x2B00: six sets of 64 PCs a bay (R340). -/
def State.carrelAt (s : State) : Nat := 24576 * s.size.bays

/-- Bytes of target 0x2B00: the PC records, then one Carrel record a bay (R340). -/
def State.calLength (s : State) : Nat := s.carrelAt + 1024 * s.size.bays

/-- The unit of a target at a burst (R435). -/
def State.portUnit (s : State) (target addr len : Nat) : Nat :=
  if target = 0x2005 then 256
  else if target = 0x2700 || target = 0x2C00 then 16
  else if target = 0x2D00 then 544
  else if target = 0x2B00 then (if s.carrelAt < addr + len then 1024 else 64)
  else if target = 0x2400 then 64
  else 32

/-- An open is allowed in the present state, in a direction: 1 read, 2 write (R435, R437). -/
def State.mayOpen (s : State) (target dir : Nat) : Bool :=
  let rd := dir == 1
  match target with
  | 0x2005 => !rd
  | 0x2400 => rd || s.boot.code == 0x12 || s.running
  | 0x2700 => true
  | 0x2800 => rd
  | 0x2B00 => true
  | 0x2C00 => rd
  | 0x2D00 => !rd
  | 0x2E00 => rd || s.obj 0x2E00 0x0A == 0
  | 0x2E10 => s.obj 0x2E00 0x0E == 2 && (rd || s.activeCons == 0)
  | _ => false

/-- A target that is judged at its close (R435). -/
def State.wholeTarget (s : State) (target dir : Nat) : Bool :=
  dir == 2 && ([0x2005, 0x2D00, 0x2E00, 0x2E10].contains target || (target == 0x2400 && s.boot.code == 0x12))

/-- A session's privilege suffices for a target (R377, R435). The Clerk may read every target and write three. -/
def State.portPriv (s : State) (x : Session) (target dir : Nat) : Bool :=
  if sessClerk x.key then
    dir == 1 || target == 0x2B00 || target == 0x2D00 || (target == 0x2400 && s.boot.code != 0x12)
  else target == 0x2D00 || 1 ≤ x.priv

/-- The content of a target that an open takes as it stands (R400, R409). -/
def State.portSnapshot (s : State) (target : Nat) : List Byte :=
  if target = 0x2E00 then s.dumpBytes else if target = 0x2E10 then s.checkpointBytes else []

/-- The content length of a target opened for reading (R435). -/
def State.portLength (s : State) (target : Nat) : Nat :=
  match target with
  | 0x2400 => 64 * s.size.segments
  | 0x2700 => 4096
  | 0x2800 => 524288
  | 0x2B00 => s.calLength
  | 0x2C00 => 65536
  | _ => (s.portSnapshot target).length

/-- Records `first` to `first + n - 1` of a target that is read as it stands (R81, R215, R276, R303, R340). -/
def State.portRecords (s : State) (target first n : Nat) : List Byte :=
  (List.range n).flatMap fun j =>
    let k := first + j
    match target with
    | 0x2400 => (s.entry k).bytes
    | 0x2700 => gateBytes (s.table.entry k)
    | 0x2800 => s.tallyBytes k
    | 0x2B00 => toBytes 64 (s.calRec (k / 384) (k / 6 % 64) (k % 6))
    | _ => ((s.mem.hard[k]?).map HardFault.bytes).getD (zeros 16)

/-- Bytes `a` to `a + n - 1` of the open target. -/
def State.portBytes (s : State) (a n : Nat) : List Byte :=
  let t := s.dport.opened
  if t = 0x2E00 || t = 0x2E10 then (s.dport.content.drop a).take n
  else if t = 0x2B00 then
    let pcs := min n (s.carrelAt - a)
    let c := (a + pcs - s.carrelAt) / 1024
    s.portRecords t (a / 64) (pcs / 64) ++
      (List.range ((n - pcs) / 1024)).flatMap fun j => padTo 1024 (s.bay (c + j)).train.carrelRec
  else
    let u := s.portUnit t a n
    s.portRecords t (a / u) (n / u)

/-! ### Control and window (R434 to R437) -/

/-- The abort of a session that does not hold the port: held by another, or held by none. -/
def State.notHolder (s : State) : Verdict := s.abort (if s.dport.holder.isSome then abHeld else abState)

/-- Opens the target at 0x5F00:01 (R434, R435, R437). The holder may open again, and its transfer is discarded (DEDUCED, log 31). -/
def State.portOpen (s : State) (x : Session) (dir : Nat) : Verdict :=
  let t := s.dport.target
  if !s.portPriv x t dir then (if sessClerk x.key then s.hardLimit 4 else s).abort abPriv
  else if s.dport.holder.isSome && s.dport.holder != some x.key then s.abort abHeld
  else if !s.mayOpen t dir then s.abort abState
  else
    let snap := if dir = 1 then s.portSnapshot t else []
    let len := if dir = 1 then s.portLength t else 0
    (s.modPort fun d =>
      { d with holder := some x.key, opened := t, whole := s.wholeTarget t dir, addr := 0, dir := dir, content := snap, length := len
               used := s.now, refused := false }).done

/-- The entry that 64 bytes spell. -/
def entryOf (bs : List Byte) : Entry :=
  let w (i : Nat) : W64 := BitVec.ofNat 64 (ofBytes ((bs.drop (8 * i)).take 8))
  { e0 := w 0, e1 := w 1, e2 := w 2, e3 := w 3, e4 := w 4, e5 := w 5, e6 := w 6, e7 := w 7 }

/-- Bytes in pieces of a size. -/
def chunks (n : Nat) : Nat → List Byte → List (List Byte)
  | 0, _ => []
  | k + 1, bs => if bs.isEmpty then [] else bs.take n :: chunks n k (bs.drop n)

/-- A firmware image was received whole (R305, R306, R318, R372). A hold for firmware ends; a failed step 5 is tried again. -/
def State.takeImage (s : State) (img : List Byte) : State :=
  let b := s.boot
  if !imageComplete img then s
  else if b.code = 0x11 || (b.code = 0x30 && b.failStep = 5) then
    s.modBoot fun b => { b with image := img, code := 5, step := 5, stepAt := s.now, failStep := 0, failReason := 0, failWhere := 0 }
  else if b.fwVer.isNone && !b.held && b.step < 5 then s.modBoot fun b => { b with image := img }
  else s.modBoot fun b => { b with pendingImage := some img }

/-- The content of a whole target is judged at its close (R80, R336, R372, R381, R401, R410, R436). -/
def State.portJudge (s : State) (target : Nat) (content : List Byte) : Verdict :=
  if target = 0x2005 then (s.takeImage content).done
  else if target = 0x2400 then
    if content.length != 64 * s.size.segments then s.done
    else
      let l := ((chunks 64 s.size.segments content).map entryOf).zipIdx.filterMap fun e => if e.1 = {} then none else some (e.2, e.1)
      ({ s with shelf := { s.shelf with load := l } } : State).done
  else if target = 0x2D00 then (if content.isEmpty then s else s.expel content).done
  else
    match (if target = 0x2E00 then s.loadDump content else s.restore content) with
    | some t => t.done
    | none => (s.modPort fun d => { d with refused := true }).abort abContent

/-- Closes the transfer (R436). -/
def State.portClose (s : State) (x : Session) : Verdict :=
  let d := s.dport
  if d.holder != some x.key then s.notHolder
  else if d.whole then s.releasePort.portJudge d.opened d.content
  else s.releasePort.done

/-- Abandons the transfer (R434). -/
def State.portAbandon (s : State) (x : Session) : Verdict :=
  if s.dport.holder != some x.key then s.notHolder else s.releasePort.done

/-- A write of 0x5F00:03 (R437). -/
def State.portControl (s : State) (x : Session) (v : Nat) : Verdict :=
  if v = 1 || v = 2 then s.portOpen x v
  else if v = 3 then s.portClose x
  else s.portAbandon x

/-- The burst of a session's window read: over I3C no longer than the controller's read length allows (R431, R434). -/
def State.portBurst (s : State) (x : Session) : Nat :=
  let d := s.dport
  if x.key == .i3c && s.buses.i3cMrl < d.burst + 7 then
    let u := s.portUnit d.opened d.addr 0
    (s.buses.i3cMrl - 7) / u * u
  else d.burst

/-- A window read (R434, R435). -/
def State.windowRead (s : State) (x : Session) : Verdict :=
  let d := s.dport
  let n := min (s.portBurst x) (d.length - d.addr)
  let u := s.portUnit d.opened d.addr n
  if d.holder.isSome && (d.addr % u != 0 || s.portBurst x % u != 0 || s.portBurst x = 0) then s.abort abLength
  else if d.holder != some x.key then s.notHolder
  else if d.dir != 1 then s.abort abState
  else if d.length ≤ d.addr then s.abort abEnd
  else { value := s.portBytes d.addr n, st := s.modPort fun d => { d with addr := d.addr + n, used := s.now } }

/-- A burst of records, judged whole: none where it is refused, with the abort code (R81, R276, R331, R436). -/
def State.putRecords (s : State) (target addr : Nat) (bs : List Byte) : Option State × Nat :=
  let n := bs.length
  if target = 0x2400 then
    if 16384 * 64 < addr + n then (none, abRange)
    else (some ((chunks 64 n bs).zipIdx.foldl (fun t e => t.stageRecord (addr / 64 + e.2) (entryOf e.1)) s), 0)
  else if target = 0x2700 then
    let l := (chunks 16 n bs).map ofBytes
    if 4096 < addr + n || l.any fun v => 2 ^ 96 ≤ v then (none, abRange)
    else
      (some (l.zipIdx.foldl (fun t e => t.modTable fun y => y.setEntry (addr / 16 + e.2) (e.1 % 2 ^ 64) (e.1 / 2 ^ 64)) s), 0)
  else
    if s.calLength < addr + n then (none, abRange)
    else
      let pcs := min n (s.carrelAt - addr)
      let l := (chunks 64 n (bs.take pcs)).zipIdx.map fun e => (addr / 64 + e.2, ofBytes e.1)
      let c := (chunks 1024 n (bs.drop pcs)).zipIdx.map fun e => ((addr + pcs - s.carrelAt) / 1024 + e.2, e.1)
      if !(l.all fun e => s.calOk (e.1 / 384) (e.1 / 6 % 64) (e.1 % 6) e.2) || !(c.all fun e => carrelRecOk e.2) then (none, abContent)
      else
        let s := l.foldl (fun t e => t.storeCal (e.1 / 384) (e.1 / 6 % 64) (e.1 % 6) e.2) s
        (some (c.foldl (fun t e => t.storeCarrel e.1 e.2) s), 0)

/-- A window write (R434 to R436). -/
def State.windowWrite (s : State) (x : Session) (bs : List Byte) : Verdict :=
  let d := s.dport
  let u := s.portUnit d.opened d.addr bs.length
  if d.holder.isSome && (d.addr % u != 0 || bs.length % u != 0) then s.abort abLength
  else if d.holder != some x.key then s.notHolder
  else if d.dir != 2 then s.abort abState
  else
    let moved (t : State) : State := t.modPort fun e => { e with addr := e.addr + bs.length, used := t.now }
    if d.whole then
      if d.addr != d.content.length then s.abort abState
      else (moved (s.modPort fun e => { e with content := e.content ++ bs })).done
    else match s.putRecords d.opened d.addr bs with
      | (some t, _) => (moved t).done
      | (none, code) => s.abort code

/-- Writes of 0x5F00, after its hold has lapsed or not (R434, R437). -/
def State.portWrite (s : State) (x : Session) (sub v : Nat) (bs : List Byte) : Verdict :=
  let other := s.dport.holder.isSome && s.dport.holder != some x.key
  if sub = 3 then s.portControl x v
  else if sub = 4 then s.windowWrite x bs
  else if other then s.abort abHeld
  else if sub = 1 then (s.modPort fun d => { d with target := v }).done
  else if sub = 2 then (s.modPort fun d => { d with addr := v }).done
  else (s.modPort fun d => { d with burst := v }).done

end Sys2Proof.Machine
end

