-- ==== Sys2Proof/Machine/Access.lean ====
section
/-! DEFINITION. A Catalogue access from its session to its answer, in the order of R428, and the commands that are accesses over any
transport (R19, R377, R398, R414 to R428, R434, R440, R448, R451). -/

namespace Sys2Proof.Machine

/-- What may be read in the stopped state (R19). -/
def stoppedRead (i : Nat) : Bool :=
  (0x1000 ≤ i && i < 0x2000) || [0x2000, 0x2030, 0x2090, 0x5F10].contains i || (0x2200 ≤ i && i ≤ 0x2217)

/-- What may be written in the stopped state (R19). -/
def stoppedWrite (i sub : Nat) : Bool := (i == 0x1F00 && (sub == 2 || sub == 4)) || (i == 0x2000 && sub == 2)

/-- A session that is not the Clerk's may write an object (R419, R423, R448). -/
def State.mayWrite (s : State) (x : Session) (r : ObjDef) (i sub : Nat) : Bool :=
  r.priv ≤ x.priv || (i == 0x2800 && sub == 1 && bit (s.obj 0x2003 1) 1) ||
  (i == 0x3680 && sub == 1 && sessBand x.key && bit (s.obj 0x2003 1) 0)

/-- A read of an event: the session's next, or the read waits for one (R440). -/
def State.eventRead (s : State) (x : Session) (a : Option Arrival) : Verdict :=
  match s.nextEvent x with
  | some (e, y) => { value := e.bytes, st := s.setSession y }
  | none => { st := s.setSession { x with evWait := x.evWait ++ [(s.now + 1000000000, a)] }, wait := true }

/-- A read (R417 to R419, R428). The sample time of a counter is kept for its session (R450). -/
def State.catRead (s : State) (x : Session) (a : Option Arrival) (i sub : Nat) : Verdict :=
  if !s.hasIndex i then s.abort abNoIndex
  else match s.objDef i sub with
    | none => s.abort abNoSub
    | some r =>
      if r.acc = .wo then s.abort abReadWo
      else if i = 0x2C60 && x.priv < 2 && !sessClerk x.key then s.abort abPriv
      else if s.stopped && !stoppedRead i then s.abort abState
      else if i = 0x5F00 && sub = 4 then s.windowRead x
      else if i = 0x2090 && sub = 3 then s.eventRead x a
      else
        let t := if i = 0x3680 && sub = 2 then s.setSession { x with sampleAt := s.test.frozen.getD s.time } else s
        { value := s.readObj x r i sub, st := t }

/-- The length of a value is that of the object's type (R416, R417): a window takes 1 to 4,096 bytes. -/
def lengthOk (r : ObjDef) (i sub n : Nat) : Bool := if i = 0x5F00 && sub = 4 then 1 ≤ n && n ≤ 4096 else n == r.size

/-- What an accepted write of a rw object leaves: its MGMT record, and TIMING (R393, R398). -/
def State.noteWrite (s : State) (x : Session) (r : ObjDef) (i sub v : Nat) : State :=
  if r.acc != .rw then s
  else
    let s := s.record 24 7
      (BitVec.ofNat 64 (Objects.key i sub * 2 ^ 40 + sessTransport x.key * 2 ^ 38 + x.priv * 2 ^ 36)) (BitVec.ofNat 64 v)
    if r.sel || i = 0x2E00 then s else s.markTiming 7

/-- A write (R377, R417 to R419, R423, R428). -/
def State.catWrite (s : State) (x : Session) (i sub : Nat) (bs : List Byte) (rep : StepReport) : Verdict :=
  if !s.hasIndex i then s.abort abNoIndex
  else match s.objDef i sub with
    | none => s.abort abNoSub
    | some r =>
      let v := ofBytes bs
      if r.acc = .ro || r.acc = .cnst || (i = 0x2600 && sub = 2) then s.abort abWriteRo
      else if sessClerk x.key && !r.clerk && !s.clerkPair i sub then (s.hardLimit 4).abort abPriv
      else if !sessClerk x.key && !s.mayWrite x r i sub then s.abort abPriv
      else if !lengthOk r i sub bs.length then s.abort abLength
      else if !r.admits v then (if i = 0x2B00 && sub = 5 && 2 < v then s.hardLimit 6 else s).abort abRange
      else if s.stopped && !stoppedWrite i sub then s.abort abState
      else
        let w := if r.sel then (s.setSession (x.put i sub v)).done
          else if i = 0x5F00 then s.portWrite x sub v bs
          else s.effect x i sub v bs rep
        if w.abort = 0 then { w with st := w.st.noteWrite x r i sub v } else w

/-- A Catalogue access of a session: a read, or a write of some bytes (R420, R425, R428, R434, R444). -/
def State.catAccess (s : State) (k : Sess) (a : Option Arrival) (i sub : Nat) (write : Option (List Byte)) (rep : StepReport) : Verdict :=
  match s.openSession k with
  | none => s.abort abNoSession
  | some s =>
    let x := s.current k
    let s := (s.setSession x).lapsePort
    let s := if i = 0x5F00 && s.dport.holder == some k then s.modPort fun d => { d with used := s.now } else s
    let v := match write with
      | none => s.catRead x a i sub
      | some bs => s.catWrite x i sub bs rep
    { v with st := v.st.count { code := 0x0150, origin := if sessClerk k then 2 else 3 } }

/-- Answers an access, or leaves its answer to an event; a block reset follows its answer. -/
def Verdict.finish (v : Verdict) (k : Sess) (a : Option Arrival) : State :=
  if v.wait then v.st
  else
    let s := v.st.catAnswer k a v.abort v.value
    if v.reset then s.blockReset else s

/-- A write of some bytes over a session's transport. A transport that does not reach the Catalogue changes nothing. -/
def State.writeBytes (s : State) (k : Sess) (i sub : Nat) (bs : List Byte) (rep : StepReport := {}) : State :=
  if s.reaches k then (s.catAccess k none i sub (some bs) rep).finish k none else s

/-- The bytes of a number in an object's type; one byte more where the number does not fit it. -/
def valBytes (n v : Nat) : List Byte := if v < 256 ^ n then toBytes n v else toBytes (n + 1) v

/-- A write of a number. -/
def State.writeNum (s : State) (k : Sess) (i sub v : Nat) (rep : StepReport := {}) : State :=
  s.writeBytes k i sub (valBytes (((s.objDef i sub).map (·.size)).getD 4) v) rep

/-- A read over a session's transport. -/
def State.readNow (s : State) (k : Sess) (i sub : Nat) : State :=
  if s.reaches k then (s.catAccess k none i sub none {}).finish k none else s

/-! ### Commands that are writes of one object -/

/-- PORT_CONFIG_WRITE (R44, R62). -/
def execPortConfigWrite (sess : Sess) (port value : Nat) (s : State) : Out := .next (s.writeNum sess 0x2040 (port + 1) value)

/-- METER_RATE_WRITE: `sub` is 6 CIR, 7 CBS, 8 PIR or 9 PBS (R259). -/
def execMeterRateWrite (sess : Sess) (cls sub value : Nat) (s : State) : Out :=
  .next (if cls < 64 then s.writeNum sess (0x2600 + cls) sub value else s)

/-- TIMETABLE_COMMIT (R262). -/
def execTimetableCommit (sess : Sess) (s : State) : Out := .next (s.writeNum sess 0x2700 5 1)

/-- STAGE_CLEAR (R81). -/
def execStageClear (sess : Sess) (s : State) : Out := .next (s.writeNum sess 0x2400 2 1)

/-- STAGE_VALIDATE (R81, R82). -/
def execStageValidate (sess : Sess) (s : State) : Out := .next (s.writeNum sess 0x2400 2 2)

/-- COMMIT_KEY_FIRST (R81). -/
def execCommitKeyFirst (sess : Sess) (key : Nat) (s : State) : Out := .next (s.writeNum sess 0x2400 7 key)

/-- COMMIT_KEY_SECOND (R81, R83). -/
def execCommitKeySecond (sess : Sess) (key : Nat) (s : State) : Out := .next (s.writeNum sess 0x2400 8 key)

/-- TALLY_DEBUG_SET (R212). -/
def execTallyDebugSet (sess : Sess) (value : Nat) (s : State) : Out := .next (s.writeNum sess 0x2800 3 value)

/-- TALLY_FORCED_FREE (R212). -/
def execTallyForcedFree (sess : Sess) (s : State) : Out := .next (s.writeNum sess 0x2800 4 1)

/-- TALLY_CREATE_SHARED (R215). -/
def execTallyCreateShared (sess : Sess) (value : Nat) (s : State) : Out := .next (s.writeNum sess 0x2800 5 value)

/-- TALLY_SET_LIMIT (R213). -/
def execTallySetLimit (sess : Sess) (value : Nat) (s : State) : Out := .next (s.writeNum sess 0x2800 0x0E value)

/-- TALLY_SET_WTIMEOUT (R213). -/
def execTallySetWtimeout (sess : Sess) (value : Nat) (s : State) : Out := .next (s.writeNum sess 0x2800 0x0F value)

/-- TWIN_REJOIN (R371). -/
def execTwinRejoin (sess : Sess) (s : State) : Out := .next (s.writeNum sess 0x2D00 0x15 1)

/-- BLOCK_RESET (R304, R424). -/
def execBlockReset (sess : Sess) (s : State) : Out := .next (s.writeNum sess 0x2000 2 2)

/-- PROCEED (R305). -/
def execProceed (sess : Sess) (s : State) : Out := .next (s.writeNum sess 0x2000 2 1)

/-- CAL_RUN_REQUEST (R325). -/
def execCalRunRequest (sess : Sess) (s : State) : Out := .next (s.writeNum sess 0x2B00 0x0B 1)

/-- CAL_RECORD_WRITE (R331). -/
def execCalRecordWrite (sess : Sess) (record : List Byte) (s : State) : Out := .next (s.writeBytes sess 0x2B00 9 record)

/-- ERASURE_LIST_WRITE (R296). -/
def execErasureListWrite (sess : Sess) (lanes : List Byte) (s : State) : Out := .next (s.writeBytes sess 0x2C10 3 lanes)

/-- SHIFT_REQUEST (R241). -/
def execShiftRequest (sess : Sess) (bay point : Nat) (s : State) : Out :=
  .next (if bay < s.size.bays then s.writeNum sess (0x2100 + bay) 0x0C point else s)

/-- SENSOR_READ_NOW (R344). -/
def execSensorReadNow (sess : Sess) (s : State) : Out := .next (s.writeNum sess 0x2A00 6 1)

/-- WITHDRAWAL_DECLARATION (R360, R361). -/
def execWithdrawalDeclaration (sess : Sess) (value : Nat) (s : State) : Out := .next (s.writeNum sess 0x2D00 0x0C value)

/-- ORDERED_FENCE (R367, R378). -/
def execOrderedFence (sess : Sess) (bay : Nat) (s : State) : Out := .next (s.writeNum sess 0x2D00 0x0A bay)

/-- FENCE_LIFT (R369). -/
def execFenceLift (sess : Sess) (bay : Nat) (report : StepReport) (s : State) : Out := .next (s.writeNum sess 0x2D00 0x0B bay report)

/-- SHADOW_MODE_WRITE (R374). -/
def execShadowModeWrite (sess : Sess) (value : Nat) (s : State) : Out := .next (s.writeNum sess 0x2D00 0x13 value)

/-- NEW_RUN (R392). -/
def execNewRun (sess : Sess) (s : State) : Out := .next (s.writeNum sess 0x2E00 7 1)

/-- REPLAY_SELECT (R401, R403). -/
def execReplaySelect (sess : Sess) (value : Nat) (s : State) : Out := .next (s.writeNum sess 0x2E00 0x0A value)

/-- PAUSE_REQUEST (R407). -/
def execPauseRequest (sess : Sess) (s : State) : Out := .next (s.writeNum sess 0x2E00 0x0D 1)

/-- RESUME (R411). -/
def execResume (sess : Sess) (s : State) : Out := .next (s.writeNum sess 0x2E00 0x0D 2)

/-- POSTMARK_SELF_TEST (R406). -/
def execPostmarkSelfTest (sess : Sess) (s : State) : Out := .next (s.writeNum sess 0x2E00 0x11 1)

/-- LOGIN (R421). -/
def execLogin (sess : Sess) (bytes : List Byte) (s : State) : Out := .next (s.writeBytes sess 0x1F00 2 bytes)

/-- LOGOUT (R420). -/
def execLogout (sess : Sess) (s : State) : Out := .next (s.writeNum sess 0x1F00 4 1)

/-- CATALOGUE_WRITE: a write of any object (R417 to R419, R428). -/
def execCatalogueWrite (sess : Sess) (index sub : Nat) (value : List Byte) (s : State) : Out :=
  .next (s.writeBytes sess index sub value)

/-- COUNTER_FREEZE (R451). -/
def execCounterFreeze (sess : Sess) (s : State) : Out := .next (s.writeNum sess 0x3680 4 1)

/-- COUNTER_RESUME (R451). -/
def execCounterResume (sess : Sess) (s : State) : Out := .next (s.writeNum sess 0x3680 4 2)

/-- COUNTER_CLEAR_ALL (R451). -/
def execCounterClearAll (sess : Sess) (s : State) : Out := .next (s.writeNum sess 0x3680 4 3)

/-- COUNTER_CLEAR (R469). -/
def execCounterClear (sess : Sess) (s : State) : Out := .next (s.writeNum sess 0x3680 5 1)

/-- COUNTER_CONTROL_WRITE (R443, R447). -/
def execCounterControlWrite (sess : Sess) (counter value : Nat) (s : State) : Out :=
  .next (if counter < 1664 then s.writeNum sess (0x3000 + counter) 1 value else s)

/-- JOSTLE_ENABLE (R459). -/
def execJostleEnable (sess : Sess) (s : State) : Out := .next (s.writeNum sess 0x3800 1 1)

/-- JOSTLE_DISABLE (R460). -/
def execJostleDisable (sess : Sess) (s : State) : Out := .next (s.writeNum sess 0x3800 1 0)

/-! ### The Data Port (R434 to R437) -/

/-- DATA_PORT_OPEN_READ. -/
def execDataPortOpenRead (sess : Sess) (s : State) : Out := .next (s.writeNum sess 0x5F00 3 1)

/-- DATA_PORT_OPEN_WRITE. -/
def execDataPortOpenWrite (sess : Sess) (s : State) : Out := .next (s.writeNum sess 0x5F00 3 2)

/-- DATA_PORT_CLOSE. -/
def execDataPortClose (sess : Sess) (s : State) : Out := .next (s.writeNum sess 0x5F00 3 3)

/-- DATA_PORT_ABANDON. -/
def execDataPortAbandon (sess : Sess) (s : State) : Out := .next (s.writeNum sess 0x5F00 3 4)

/-- DATA_PORT_WINDOW_READ. -/
def execDataPortWindowRead (sess : Sess) (s : State) : Out := .next (s.readNow sess 0x5F00 4)

/-- DATA_PORT_WINDOW_WRITE. -/
def execDataPortWindowWrite (sess : Sess) (bytes : List Byte) (s : State) : Out := .next (s.writeBytes sess 0x5F00 4 bytes)

/-- DATA_PORT_HOLD_TIMEOUT: 10 s have passed without an access by the holder (R434). -/
def execDataPortHoldTimeout (s : State) : Out :=
  if s.dport.holder.isNone then .next s else .next (s.reach (s.dport.used + 10000000000)).releasePort

/-! ### Sessions and events (R420, R421, R440) -/

/-- SESSION_IDLE_TIMEOUT: 600 s have passed without an access; the session is at Operator privilege again (R420). -/
def execSessionIdleTimeout (sess : Sess) (s : State) : Out :=
  match s.session sess with
  | none => .next s
  | some x => .next ((s.reach (x.used + 600000000000)).setSession { x with priv := 0 })

/-- LOGIN_LOCKOUT_END: 10 s have passed since the third refused login (R421). -/
def execLoginLockoutEnd (sess : Sess) (s : State) : Out :=
  match s.session sess with
  | none => .next s
  | some x => if x.lockTill = 0 then .next s else .next ((s.reach x.lockTill).setSession { x with lockTill := 0 })

/-- EVENT_READ: a read of 0x2090:03 (R440). -/
def execEventRead (sess : Sess) (s : State) : Out := .next (s.readNow sess 0x2090 3)

/-- EVENT_READ_TIMEOUT: a read has waited 1 s without an event, and returns zero bytes (R440). -/
def execEventReadTimeout (sess : Sess) (s : State) : Out :=
  match s.session sess with
  | none => .next s
  | some x =>
    match x.evWait with
    | [] => .next s
    | (t, a) :: ws => .next (((s.reach t).setSession { x with evWait := ws }).catAnswer sess a 0 (zeros 16))

end Sys2Proof.Machine
end

