-- ==== Sys2Proof/Machine/Can.lean ====
section
/-! DEFINITION. The CAN FD transport: SDO channels with expedited, segmented and block transfers, their time limit, and the heartbeat
(R428 to R430). The frames are those of CiA 301, which R430 names (log 32). -/

namespace Sys2Proof.Machine

/-- The SDO channel that takes an identifier (R430). -/
def State.channelOf (s : State) (ident : Nat) : Option Nat :=
  (List.range 4).find? fun ch => s.channelOn ch && ident == if ch = 0 then 0x600 + s.buses.nodeId else s.obj (0x1200 + ch) 1

/-- A frame of 8 bytes on a channel, block to client. -/
def State.sendSdo (s : State) (ch : Nat) (bs : List Byte) : State :=
  if s.channelOn ch then s.emitBus (.can (s.sdoTx ch) (padTo 8 bs)) else s

/-- An abort ends the transfer of a channel (R428). -/
def State.abortSdo (s : State) (ch i sub code : Nat) : State :=
  (s.setSdo ch none).sendSdo ch (toBytes 1 0x80 ++ toBytes 2 i ++ toBytes 1 sub ++ toBytes 4 code)

/-- An object's address in an SDO frame: index and sub-index. -/
def muxOf (i sub : Nat) : List Byte := toBytes 2 i ++ toBytes 1 sub

/-- The write that a whole download makes: it is answered by a frame, or aborted. -/
def State.sdoWrite (s : State) (ch i sub : Nat) (bs : List Byte) (reply : List Byte) : State :=
  let v := (s.setSdo ch none).catAccess (.can ch) none i sub (some bs) {}
  if v.abort != 0 then v.st.abortSdo ch i sub v.abort
  else
    let t := v.st.sendSdo ch reply
    if v.reset then t.blockReset else t

/-- The read that begins an upload: up to four bytes are returned at once, more by segments or blocks; a read of an event may wait. -/
def State.sdoRead (s : State) (ch i sub : Nat) (block : Bool) (blk : Nat) : State :=
  let v := s.catAccess (.can ch) none i sub none {}
  let n := v.value.length
  let x : Sdo := { up := true, block := block, index := i, sub := sub, buf := v.value, size := n, blk := blk, at_ := s.now }
  if v.abort != 0 then v.st.abortSdo ch i sub v.abort
  else if v.wait then v.st.setSdo ch (some { x with wait := true })
  else if !block && 1 ≤ n && n ≤ 4 then v.st.sendSdo ch (toBytes 1 (0x43 + (4 - n) * 4) ++ muxOf i sub ++ v.value)
  else (v.st.setSdo ch (some x)).sendSdo ch (uploadInit x)

/-- A frame that begins a transfer. -/
def State.sdoBegin (s : State) (ch : Nat) (f : List Byte) : State :=
  let c := (f.headD 0).toNat
  let i := ofBytes ((f.drop 1).take 2)
  let sub := (f.getD 3 0).toNat
  let d := f.drop 4
  let x : Sdo := { up := false, block := false, index := i, sub := sub, buf := [], size := 0, at_ := s.now }
  let bad := s.abortSdo ch i sub 0x05040001
  match c / 32 with
  | 1 =>
    if bit c 1 then s.sdoWrite ch i sub (d.take (if bit c 0 then 4 - bits c 3 2 else 4)) (toBytes 1 0x60 ++ muxOf i sub)
    else (s.setSdo ch (some { x with size := if bit c 0 then ofBytes d else 0 })).sendSdo ch (toBytes 1 0x60 ++ muxOf i sub)
  | 2 => s.sdoRead ch i sub false 0
  | 5 =>
    let blk := (f.getD 4 0).toNat
    if bits c 1 0 != 0 then bad
    else if blk = 0 || 127 < blk then s.abortSdo ch i sub 0x05040002
    else s.sdoRead ch i sub true blk
  | 6 =>
    if bit c 0 then bad
    else
      (s.setSdo ch (some { x with block := true, crc := bit c 2, size := if bit c 1 then ofBytes d else 0 })).sendSdo ch
        (toBytes 1 0xA4 ++ muxOf i sub ++ toBytes 1 127)
  | _ => bad

/-- The data of a download is whole: its write, unless the declared size is another (R417). -/
def State.sdoWhole (s : State) (ch : Nat) (x : Sdo) (bs : List Byte) (reply : List Byte) : State :=
  if x.size != 0 && x.size != bs.length then s.abortSdo ch x.index x.sub abLength else s.sdoWrite ch x.index x.sub bs reply

/-- A segment of a download. -/
def State.downSegment (s : State) (ch : Nat) (x : Sdo) (f : List Byte) : State :=
  let c := (f.headD 0).toNat
  let reply := toBytes 1 (0x20 + b2n x.toggle * 16)
  if c / 32 != 0 then s.abortSdo ch x.index x.sub 0x05040001
  else if bit c 4 != x.toggle then s.abortSdo ch x.index x.sub 0x05030000
  else
    let bs := x.buf ++ ((f.drop 1).take (7 - bits c 3 1))
    if bit c 0 then s.sdoWhole ch x bs reply
    else (s.setSdo ch (some { x with buf := bs, toggle := !x.toggle })).sendSdo ch reply

/-- A segment of an upload is asked for. -/
def State.upSegment (s : State) (ch : Nat) (x : Sdo) (c : Nat) : State :=
  if c / 32 != 3 then s.abortSdo ch x.index x.sub 0x05040001
  else if bit c 4 != x.toggle then s.abortSdo ch x.index x.sub 0x05030000
  else
    let d := (x.buf.drop x.sent).take 7
    let last := x.buf.length ≤ x.sent + 7
    let s := s.setSdo ch (if last then none else some { x with sent := x.sent + 7, toggle := !x.toggle })
    s.sendSdo ch (toBytes 1 (b2n x.toggle * 16 + (7 - d.length) * 2 + b2n last) ++ d)

/-- A segment of a block download, or the frame that ends it. The segments up to the first gap are kept, and the answer tells how
many; the client sends the others again. -/
def State.downBlock (s : State) (ch : Nat) (x : Sdo) (f : List Byte) : State :=
  let c := (f.headD 0).toNat
  if x.ending then
    if c / 32 != 6 || bits c 1 0 != 1 then s.abortSdo ch x.index x.sub 0x05040001
    else
      let bs := x.buf.take (x.buf.length - bits c 4 2)
      if x.crc && ofBytes ((f.drop 1).take 2) != crc16 bs then s.abortSdo ch x.index x.sub 0x05040004
      else s.sdoWhole ch x bs (toBytes 1 0xA1)
  else
    let n := c % 128
    if n = 0 then s.abortSdo ch x.index x.sub 0x05040003
    else
      let good := n == x.segNo + 1
      let x1 := if good then { x with buf := x.buf ++ f.drop 1, segNo := n, ending := bit c 7 } else x
      if n = 127 || bit c 7 then
        (s.setSdo ch (some { x1 with segNo := 0 })).sendSdo ch (toBytes 1 0xA2 ++ toBytes 1 x1.segNo ++ toBytes 1 127)
      else s.setSdo ch (some x1)

/-- The block sends the segments of its next block. -/
def State.sendBlock (s : State) (ch : Nat) (x : Sdo) : State :=
  let segs := min x.blk (ceilDiv (x.buf.length - x.sent) 7)
  let s := (List.range segs).foldl (fun t k =>
    let o := x.sent + 7 * k
    t.sendSdo ch (toBytes 1 (b2n (x.buf.length ≤ o + 7) * 128 + k + 1) ++ (x.buf.drop o).take 7)) s
  s.setSdo ch (some { x with segNo := segs })

/-- A client's frame in a block upload: the start, the answer to a block, or the answer to the end. -/
def State.upBlock (s : State) (ch : Nat) (x : Sdo) (f : List Byte) : State :=
  let c := (f.headD 0).toNat
  let bad := s.abortSdo ch x.index x.sub 0x05040001
  if x.ending then if c = 0xA1 then s.setSdo ch none else bad
  else if x.segNo = 0 then if c = 0xA3 then s.sendBlock ch x else bad
  else if c != 0xA2 then bad
  else
    let ack := (f.getD 1 0).toNat
    let blk := (f.getD 2 0).toNat
    let y := { x with sent := min x.buf.length (x.sent + 7 * ack), blk := blk }
    if x.segNo < ack then s.abortSdo ch x.index x.sub 0x05040003
    else if blk = 0 || 127 < blk then s.abortSdo ch x.index x.sub 0x05040002
    else if y.sent < x.buf.length then s.sendBlock ch y
    else
      (s.setSdo ch (some { y with ending := true })).sendSdo ch
        (toBytes 1 (0xC1 + (7 * ceilDiv x.buf.length 7 - x.buf.length) * 4) ++ toBytes 2 (crc16 x.buf))

/-- CAN_SDO_FRAME: a frame of 8 bytes on an SDO channel (R430). -/
def execCanSdoFrame (ident : Nat) (frame : List Byte) (s : State) : Out :=
  if !s.catalogueUp || frame.length != 8 then .next s
  else match s.channelOf ident with
    | none => .next s
    | some ch =>
      match s.sdo ch with
      | none => .next (if frame.headD 0 = 0x80 then s else s.sdoBegin ch frame)
      | some x =>
        let y := { x with at_ := s.now }
        if frame.headD 0 = 0x80 then .next (s.setSdo ch none)
        else if x.wait then .next (s.abortSdo ch x.index x.sub 0x05040001)
        else if x.block then .next (if x.up then s.upBlock ch y frame else s.downBlock ch y frame)
        else .next (if x.up then s.upSegment ch y (frame.headD 0).toNat else s.downSegment ch y frame)

/-- CAN_TRANSFER_ABANDON: the client has been silent for 5 s in a transfer (R428). -/
def execCanTransferAbandon (ch : Nat) (s : State) : Out :=
  match s.sdo ch with
  | none => .next s
  | some x => .next (if x.wait then s else (s.reach (x.at_ + 5000000000)).abortSdo ch x.index x.sub abTimeout)

/-- The state byte of a heartbeat (R430). -/
def State.beatByte (s : State) : Byte := if s.running then 0x05 else if s.stopped then 0x04 else 0x7F

/-- HEARTBEAT: every 0x1017:00 ms (R430, R441). -/
def execHeartbeat (s : State) : Out :=
  if s.obj 0x1017 0 = 0 || s.buses.nodeId = 0 || !s.catalogueUp then .next s
  else
    let s := s.reach (s.buses.lastBeat + s.obj 0x1017 0 * 1000000)
    .next (({ s with buses := { s.buses with lastBeat := s.now } } : State).emitBus (.can (0x700 + s.buses.nodeId) [s.beatByte]))

end Sys2Proof.Machine
end

