-- ==== Sys2Proof/Machine/I3c.lean ====
section
/-! DEFINITION. The I3C transport: requests and answers, and the common command codes (R431, R432). What the codes carry is that of
MIPI I3C Basic, which R431 names (log 33). -/

namespace Sys2Proof.Machine

/-- Sets the answer that the controller will read. -/
def State.setI3c (s : State) (x : Option (Nat × Nat × List Byte)) : State := { s with buses := { s.buses with i3cAnswer := x } }

/-- The bytes of an answer (R432). -/
def i3cBytes (x : Option (Nat × Nat × List Byte)) : List Byte :=
  match x with
  | none => zeros 7
  | some (st, code, value) => toBytes 1 st ++ toBytes 4 code ++ toBytes 2 value.length ++ value

/-- The verdict of a request becomes the answer; a block reset takes the answer with it (log 28). -/
def State.i3cVerdict (v : Verdict) : State :=
  if v.wait then v.st
  else
    let s := v.st.setI3c (some (if v.abort = 0 then 0 else 2, v.abort, v.value))
    if v.reset then (s.emit (.i3c (i3cBytes s.buses.i3cAnswer))).blockReset else s

/-- A request that the transport aborts before it reaches an object. -/
def State.i3cAbort (s : State) (code : Nat) : State := s.setI3c (some (2, code, []))

/-- I3C_REQUEST: a private write of a request. One more while one is pending is aborted, and the pending one is kept (R432). -/
def execI3cRequest (bytes : List Byte) (s : State) : Out :=
  if !s.catalogueUp then .next s
  else
    let cmd := (bytes.headD 0).toNat
    let i := ofBytes ((bytes.drop 1).take 2)
    let sub := (bytes.getD 3 0).toNat
    let n := ofBytes ((bytes.drop 4).take 2)
    let val := bytes.drop 6
    if (s.buses.i3cAnswer.map (·.1)) = some 1 then .next (s.emitBus (.cat .i3c abHeld []))
    else if bytes.length < 6 || s.buses.i3cMwl < bytes.length || n != val.length then .next (s.i3cAbort abLength)
    else if cmd = 1 then
      .next (if n = 0 then State.i3cVerdict ((s.setI3c (some (1, 0, []))).catAccess .i3c none i sub none {}) else s.i3cAbort abLength)
    else if cmd = 2 then .next (State.i3cVerdict ((s.setI3c (some (1, 0, []))).catAccess .i3c none i sub (some val) {}))
    else .next (s.i3cAbort abRange)

/-- I3C_ANSWER_READ: a private read of the answer, up to the read length (R431, R432). -/
def execI3cAnswerRead (s : State) : Out :=
  .next (if s.catalogueUp then s.emit (.i3c ((i3cBytes s.buses.i3cAnswer).take s.buses.i3cMrl)) else s)

/-- A code that the target takes: the Catalogue islands are up. -/
def State.ccc (s : State) (f : Buses → Buses) (answer : Option (List Byte) := none) : State :=
  if s.catalogueUp then
    let t := { s with buses := f s.buses }
    match answer with
    | some bs => t.emit (.i3c bs)
    | none => t
  else s

/-- The provisional ID, most significant byte first. -/
def pidBytes : List Byte := toBytesBe 6 Config.i3cPid.toNat

/-- ENTDAA: a target without a dynamic address sends its ID, BCR and DCR, and takes the address (R431). -/
def execEntdaa (addr : Nat) (s : State) : Out :=
  .next (if s.buses.i3cDyn != 0 then s
    else s.ccc (fun b => { b with i3cDyn := addr % 128 }) (some (pidBytes ++ [0x06, 0x00])))

/-- SETDASA: the target with this static address, and no dynamic one, takes the address (R431). -/
def execSetdasa (static addr : Nat) (s : State) : Out :=
  .next (if s.buses.i3cDyn != 0 || static != s.buses.i3cStatic then s else s.ccc fun b => { b with i3cDyn := addr % 128 })

/-- RSTDAA: the dynamic address is lost (R431). -/
def execRstdaa (s : State) : Out := .next (s.ccc fun b => { b with i3cDyn := 0 })

/-- ENEC: bit 0 enables the target's interrupts (R431). -/
def execEnec (bits : Byte) (s : State) : Out := .next (s.ccc fun b => { b with i3cEvents := b.i3cEvents || bits.getLsbD 0 })

/-- DISEC: bit 0 disables the target's interrupts (R431). -/
def execDisec (bits : Byte) (s : State) : Out := .next (s.ccc fun b => { b with i3cEvents := b.i3cEvents && !bits.getLsbD 0 })

/-- GETPID: the provisional ID (R431). -/
def execGetpid (s : State) : Out := .next (s.ccc id (some pidBytes))

/-- GETBCR: 0x06, IBI capable, with payload (R431). -/
def execGetbcr (s : State) : Out := .next (s.ccc id (some [0x06]))

/-- GETDCR: 0x00 (R431). -/
def execGetdcr (s : State) : Out := .next (s.ccc id (some [0x00]))

/-- GETSTATUS: two bytes of target status, whose content the spec leaves open: a free value (log 3). -/
def execGetstatus (s : State) : Out :=
  .next (if s.catalogueUp then s.draw.2.emit (.i3c (toBytes 2 s.draw.1.toNat)) else s)

/-- SETMWL: the write length (R431). -/
def execSetmwl (len : Nat) (s : State) : Out := .next (s.ccc fun b => { b with i3cMwl := len % 65536 })

/-- SETMRL: the read length (R431). -/
def execSetmrl (len : Nat) (s : State) : Out := .next (s.ccc fun b => { b with i3cMrl := len % 65536 })

/-- GETMWL: the write length, most significant byte first (R431). -/
def execGetmwl (s : State) : Out := .next (s.ccc id (some (toBytesBe 2 s.buses.i3cMwl)))

/-- GETMRL: the read length, most significant byte first, and the one byte of an interrupt's payload (R431, R432). -/
def execGetmrl (s : State) : Out := .next (s.ccc id (some (toBytesBe 2 s.buses.i3cMrl ++ [1])))

end Sys2Proof.Machine
end

