-- ==== Sys2Proof/Machine/Pipeline.lean ====
section
/-! DEFINITION. Messages on the client ports: Intake, the order of a source's requests, what each message does, credit returns and
the escape channel (R19, R37, R40, R43 to R52, R56, R61, R63, R96, R104 to R106, R114, R143, R146, R159, R250, R398, R407, R433, R454). -/

namespace Sys2Proof.Machine

/-! ### Intake (R40, R398, R444, R454) -/

/-- The opcodes that the block receives on a class (R45). -/
def opcodesOf (vc : Nat) : List (BitVec 8) :=
  match vc with
  | 0 => [0x01, 0x02, 0x04, 0x08, 0x0C, 0x0D, 0x0E, 0x0F]
  | 1 => [0x26, 0x27]
  | 2 => [0x41, 0x42]
  | _ => [0x61, 0x62]

/-- A header carries an opcode of the class of its channel, and names that class (R45). -/
def opcodeKnown (a : Arrival) (vc : Nat) : Bool := a.hdr.mclass.toNat == vc && (opcodesOf vc).contains a.hdr.opcode

/-- The INGRESS record of a header (R398). -/
def State.ingress (s : State) (a : Arrival) : State :=
  let crc := if a.data.isEmpty then 0 else crc32c a.data
  s.record (a.port / 2) 2 ((hdrWords a.hdr).headD 0)
    (BitVec.ofNat 64 (a.hdr.tag.toNat * 2 ^ 48 + a.hdr.seq.toNat * 2 ^ 32 + crc)) (a.port * 2 ^ 26 + a.slot % 8 * 2 ^ 23)

/-- Tags a header that passes Intake, with probability 2^-N (R454). -/
def State.tagItem (s : State) (a : Arrival) (vc : Nat) : State :=
  let n := s.obj 0x3690 1
  let b := a.port / 2
  if n < 8 || (vc != 0 && vc != 3) || !opcodeKnown a vc || malformed a || !s.clsEnabled (clsOf a) ||
      !bit (s.obj 0x3690 2) (clsOf a) || !bit (s.obj 0x3690 3) a.port then s
  else
    let g := lfsrStep (getA s.test.itemLfsr b 1)
    let s := { s with test := { s.test with itemLfsr := putA s.test.itemLfsr b g } }
    if lfsrDraws n g then
      { s with test := { s.test with tagged := s.test.tagged ++ [{ port := a.port, hdr := a.hdr, stamp := { t0 := s.time } }] } }
    else s

/-- The flits of a message are in its inbound pool, and it has its place in arrival order (R40, R444). -/
def State.takeIn (s : State) (a : Arrival) (vc : Nat) : Nat × State :=
  let q := s.port a.port
  let i := poolOf a vc
  let s := s.setPort a.port { q with free := q.free.set i (q.free.getD i 0 - flitsOf a.data) }
  let o : Occ :=
    { code := 0x0102, cls := some (clsOf a), port := some a.port, dom := some a.hdr.domain.toNat
      addr := if a.hdr.addr = 0 then none else some a.hdr.addr.toNat }
  let s := s.count o
  let s := if a.data.isEmpty then s else s.count { o with code := 0x0104, adds := ceilDiv a.data.length 64 }
  let s := s.count { code := 0x0140, adds := Config.hubFlits 0 s.nextId }
  let s := if vc = 1 then s else s.ingress a
  (s.tagItem a vc).newId

/-- A message has been dealt with as far as it goes now: its flits leave the port pool unless Franking keeps it there (R41, R254),
and a request that is already over is no longer waited for. -/
def State.finishMsg (s : State) (a : Arrival) (vc id : Nat) : State :=
  let pooled := s.ops.any fun o => o.id == id && o.inPool
  let s := if pooled || !s.inService a.port then s else s.freePool a.port (poolOf a vc) (flitsOf a.data)
  if s.ops.any fun o => o.id == id then s else s.endOp id

/-! ### Requests on REQ -/

/-- The records of a slip allow an RD, or a WR (R159). -/
def Slip.allows (p : Slip) (wr : Bool) : Bool := if wr then p.shelving else p.retrieval.isSome

/-- A message with CSG = 1 breaks what every such message must carry: an active consignment in its generation, its TCLASS and a SRCID in its
Intake range (R61, R143). -/
def State.csgBroken (s : State) (a : Arrival) : Bool :=
  match s.con a.hdr.cid.toNat with
  | none => true
  | some c => c.state != .active || c.cgen != a.hdr.cgen || a.hdr.tclass != c.msg.hdr.tclass || a.hdr.srcid.toNat < c.slip.srclo ||
      c.slip.srchi < a.hdr.srcid.toNat

/-- What R75 answers to a request as it stands, before its sort (R54). -/
def State.memStatus (s : State) (a : Arrival) : BitVec 4 :=
  let op := a.hdr.opcode
  if misaligned a then stDenied
  else s.check75 a.hdr.addr.toNat (if op = 0x04 then atomBytes a else a.span)
    { domain := a.hdr.domain.toNat, tclass := clsOf a, write := op != 0x01 }

/-- The status that refuses a message with CSG = 1, or OK (R50, R61, R143, R159). Whatever R75 answers DENIED goes before OVERSIZE (R54). -/
def State.csgStatus (s : State) (a : Arrival) : BitVec 4 :=
  let op := a.hdr.opcode
  match s.con a.hdr.cid.toNat with
  | none => stDenied
  | some c =>
    if s.csgBroken a || op = 0x04 || op = 0x08 then stDenied
    else if op != 0x01 && op != 0x02 then stOk
    else if c.slip.kind != 0 || c.slip.ntiles ≤ a.tile || !c.slip.allows (op = 0x02) || s.memStatus a = stDenied then stDenied
    else if c.slip.tileBytes < a.span then stOversize
    else
      let base := c.slip.tileAddr a.tile
      if a.hdr.addr.toNat < base || base + c.slip.tileBytes < a.hdr.addr.toNat + a.span then stDenied else stOk

/-- What comes before RETRY in an answer to a request that a pause meets (R54): DENIED, NOMAP or FENCED by its address, or DENIED by its slip. -/
def State.beforeRetry (s : State) (a : Arrival) : BitVec 4 :=
  let op := a.hdr.opcode
  if op = 0x01 || op = 0x02 || op = 0x04 then s.memStatus a
  else if op = 0x08 then
    (match parseSlip a with
      | none => stDenied
      | some p =>
        if p.kind = 3 then (match s.con p.rcid with
          | none => stDenied
          | some c => if c.state != .active || c.cgen != p.rcgen || c.msg.hdr.domain != a.hdr.domain then stDenied else stOk)
        else if s.slipRefused a p || s.classRefuses a p then stDenied
        else s.slipStatus a p)
  else if op = 0x0C then (if a.fkind = 3 then stDenied else stOk)
  else stOk

/-- A requested or reached pause answers a request RETRY (R407). -/
def State.pauseRefuses (s : State) (a : Arrival) : Bool :=
  let op := a.hdr.opcode
  s.pausing && (a.hdr.csg || op = 0x04 || op = 0x08 || op = 0x0C || (op = 0x0D && a.top != 0))

/-- An OWNER_LOST at its turn (R63, R203). -/
def State.ownerLostIn (s : State) (a : Arrival) : State :=
  if bit (s.portCfg a.port) 1 then s.noticeLoss a else s.refuse a stDenied

/-- The bytes of a value that a MGMT write carries (R433): those of the object's type, in the least number of granules and followed by
zero bytes; anything else keeps its own length. A burst for the Data Port is the whole of its granules. -/
def State.bandValue (s : State) (i sub : Nat) (payload : List Byte) : List Byte :=
  match s.objDef i sub with
  | none => payload
  | some r =>
    if i = 0x5F00 && sub = 4 then payload
    else if payload.length = 32 * ceilDiv r.size 32 && (payload.drop r.size).all (· == 0) then payload.take r.size
    else payload

/-- A MGMT at its turn (R63, R433). -/
def State.mgmtIn (s : State) (a : Arrival) : State :=
  if !bit (s.portCfg a.port) 2 || a.hdr.ord || a.hdr.seq != 0 || a.hdr.csg then s.refuse a stDenied
  else
    let k := Sess.inband a.port a.hdr.srcid.toNat
    let w := if a.mwrite then some (s.bandValue a.mindex a.msub a.payload) else none
    (s.catAccess k (some a) a.mindex a.msub w {}).finish k (some a)

/-- The kind of a request that Franking releases. -/
def reqKind (a : Arrival) : ReqKind :=
  let op := a.hdr.opcode
  if op = 0x01 then .rd
  else if op = 0x02 then .wr
  else if op = 0x04 then .atom
  else if op = 0x08 then .admitReq
  else if op = 0x0C then .fence a.fkind
  else .tly a.top

/-- A request at its turn: refused by what R11, R45, R50, R61, R63, R143, R159, R250 and R407 look at, or on to its station. -/
def State.reqTurn (s : State) (a : Arrival) (id : Nat) : State :=
  let op := a.hdr.opcode
  let st := if a.hdr.csg && op != 0x0F then s.csgStatus a else stOk
  if malformed a || !s.clsEnabled (clsOf a) then s.refuse a stDenied
  else if st != stOk then s.refuse a st
  else if op = 0x0F then s.mgmtIn a
  else if s.pauseRefuses a then s.refuse a (if s.beforeRetry a = stOk then stRetry else s.beforeRetry a)
  else if op = 0x0E then s.ownerLostIn a
  else s.enterFranking a id (reqKind a)

/-- An FWR of a partner at its turn (R114); one with CSG = 1 is held to what every such message is (R61, R143). -/
def State.fwrTurn (s : State) (a : Arrival) (id : Nat) : State :=
  if malformed a || (a.hdr.csg && s.csgBroken a) then s.refuse a stDenied
  else
    let (turn, s) := s.newId
    (s.addOp { id := id, kind := .fwrIn, msg := a, stage := .sorting, turn := turn }).sortOp id

/-! ### The order of a source (R52, R96, R104 to R106, R114) -/

/-- Replaces the sequence state of a key. -/
def State.putSeq (s : State) (q : SeqSt) : State :=
  { s with seqs := (s.seqs.filter fun x => x.key != q.key) ++ [q] }

/-- The sequence state of a key. -/
def State.seqOf (s : State) (k : SrcKey) : SeqSt := (s.seqs.find? fun q => q.key == k).getD { key := k }

/-- A request has been accepted into the queues of its target bays, so that its successor may follow (R96): its granules to be read stand
there, and every bay has confirmed the lines that it writes. -/
def Op.accepted (o : Op) : Bool :=
  match o.stage with
  | .franking | .sorting | .vbit _ | .fill _ | .line _ => false
  | _ => o.await.isEmpty && o.parts.all fun p => p.phase != .ingress && p.phase != .behind

/-- A release FENCE holds a request (R104). -/
def heldByRelease (a : Arrival) : Bool :=
  let op := a.hdr.opcode
  op = 0x02 || op = 0x04 || op = 0x08 || (op = 0x0D && topReleases a.top)

/-- A request at its turn must wait: for its predecessor, for a FENCE or a Tally operation that waits for earlier requests, or for a
Tally wait (R96, R104 to R106). -/
def State.ordBlocked (s : State) (q : SeqSt) (a : Arrival) : Bool :=
  (match q.last.bind s.op with | some o => !o.accepted | none => false) ||
  (!q.key.fwd &&
    (s.waits.any (fun w => w.msg.hdr.ord && seqKey w.msg == q.key && (w.kind != .fence 1 || heldByRelease a)) ||
      s.tal.waiters.any fun w => w.msg.hdr.ord && seqKey w.msg == q.key))

/-- Runs the first request of a sequence that has reached its turn, if nothing holds it. -/
def State.ordNext (s : State) (k : SrcKey) : State :=
  let q := s.seqOf k
  match q.turn with
  | [] => s
  | h :: hs =>
    if s.ordBlocked q h.msg then s
    else
      let s := s.putSeq { q with turn := hs, last := some h.id }
      let s := if k.fwd then s.fwrTurn h.msg h.id else s.reqTurn h.msg h.id
      s.finishMsg h.msg h.msg.hdr.mclass.toNat h.id

/-- The held requests that the sequence reaches now take their turn, one after the other. -/
def SeqSt.pull : Nat → SeqSt → SeqSt
  | 0, q => q
  | n + 1, q =>
    match q.held.find? fun h => !h.stale && q.next == some h.msg.hdr.seq with
    | none => q
    | some h => SeqSt.pull n { q with held := q.held.erase h, turn := q.turn ++ [h], next := some (h.msg.hdr.seq + 1) }

/-- A SYNC makes its own SEQ the next expected: a held request that is not within 63 of it belongs to no sequence and waits for its timeout
(R52). -/
def HeldReq.against (n : BitVec 16) (h : HeldReq) : HeldReq :=
  let d := (h.msg.hdr.seq - n).toNat
  { h with stale := d = 0 || 64 ≤ d }

/-- A request reaches its turn and advances N (R52). -/
def State.seqTurn (s : State) (q : SeqSt) (h : HeldReq) : State :=
  let held := if h.msg.hdr.sync then q.held.map (HeldReq.against h.msg.hdr.seq) else q.held
  let p : SeqSt := { q with turn := q.turn ++ [h], held := held, next := some (h.msg.hdr.seq + 1) }
  let s := s.putSeq (SeqSt.pull p.held.length p)
  if q.turn.isEmpty then s.ordNext q.key else s

/-- An ORD request arrives (R52). -/
def State.seqIn (s : State) (a : Arrival) (id : Nat) : State :=
  let q := s.seqOf (seqKey a)
  let h : HeldReq := { id := id, msg := a, at_ := s.now }
  let no (st : BitVec 4) : State := (s.refuse a st).finishMsg a a.hdr.mclass.toNat id
  if (q.held ++ q.turn).any fun x => x.msg.hdr.seq == a.hdr.seq then no stDenied
  else if a.hdr.sync then s.seqTurn q h
  else match q.next with
    | none => s.putSeq { q with held := q.held ++ [h] }
    | some n =>
      let d := (a.hdr.seq - n).toNat
      if d = 0 then s.seqTurn q h
      else if d < 64 then s.putSeq { q with held := q.held ++ [h] }
      else no (if d < 32768 then stRetry else stDenied)

/-! ### A message that has arrived -/

/-- A message on REQ (R19, R45, R52, R54, R433). An opcode that the class does not have, and a MGMT with ORD, are refused before the order of
their source, and take no SEQ (DESIGN CHOICE, log 44). -/
def State.reqIn (s : State) (a : Arrival) (id : Nat) : State :=
  if !opcodeKnown a 0 || (a.hdr.opcode = 0x0F && a.hdr.ord && !s.stopped) || (s.stopped && malformed a) then (s.refuse a stDenied).finishMsg a 0 id
  else if s.stopped then (s.refuse a stFenced).finishMsg a 0 id
  else if a.hdr.ord then s.seqIn a id
  else (s.reqTurn a id).finishMsg a 0 id

/-- A message on RSP: never answered (R45, R58). -/
def State.rspIn (s : State) (a : Arrival) (id : Nat) : State :=
  let t := if !opcodeKnown a 1 || malformed a then s else if a.hdr.opcode = 0x26 then s.fwackIn a else s.pushackIn a
  t.finishMsg a 1 id

/-- A PUSH (R146, R154, R407). -/
def State.pushIn (s : State) (a : Arrival) : State :=
  let st := s.contribStatus a
  if malformed a || (a.hdr.csg && s.csgBroken a) then s.refuse a stDenied
  else if s.pausing && st != stDenied && st != stFenced then s.refuse a stRetry
  else s.contribute a

/-- A message on FWD (R114, R154). A pause answers an FWR before it takes its place in its sequence, so that it may be sent again
unchanged (R116, R407; DEDUCED, log 35). -/
def State.fwdIn (s : State) (a : Arrival) (id : Nat) : State :=
  if !opcodeKnown a 2 then (s.refuse a stDenied).finishMsg a 2 id
  else if a.hdr.opcode = 0x42 then (s.pushIn a).finishMsg a 2 id
  else if s.stopped then (s.refuse a (if malformed a then stDenied else stFenced)).finishMsg a 2 id
  else if s.pausing && !malformed a && !(a.hdr.csg && s.csgBroken a) then (s.refuse a stRetry).finishMsg a 2 id
  else if a.hdr.ord then s.seqIn a id
  else (s.fwrTurn a id).finishMsg a 2 id

/-- A CONTRIB (R61, R143, R146, R250, R253, R407). -/
def State.contribIn (s : State) (a : Arrival) (id : Nat) : State :=
  let st := s.contribStatus a
  if malformed a || !s.clsEnabled (clsOf a) || st = stDenied || (a.hdr.csg && s.csgBroken a) then s.refuse a stDenied
  else if s.pausing && st != stFenced then s.refuse a stRetry
  else s.enterFranking a id .contrib

/-- A message on COL: a RESULT is discarded, since the block receives none (R45, R61). -/
def State.colIn (s : State) (a : Arrival) (id : Nat) : State :=
  if !opcodeKnown a 3 then (s.refuse a stDenied).finishMsg a 3 id
  else if a.hdr.opcode = 0x62 then s.finishMsg a 3 id
  else (s.contribIn a id).finishMsg a 3 id

/-- A message arrives on a channel of a port. A port out of service takes no flits (R44); a message for which the sender cannot hold
credits has no place in its pool (R40). -/
def State.message (s : State) (a : Arrival) (vc : Nat) : Out :=
  if !s.inService a.port then .next s
  else if (s.port a.port).free.getD (poolOf a vc) 0 < flitsOf a.data then .fault (.portPoolOverrun a.port)
  else
    let (id, s) := s.takeIn a vc
    .next (match vc with
      | 0 => s.reqIn a id
      | 1 => s.rspIn a id
      | 2 => s.fwdIn a id
      | _ => s.colIn a id)

/-! ### The rows of the opcode table -/

/-- A message as its row names it: opcode and class. -/
def asMsg (a : Arrival) (op : BitVec 8) (cls : BitVec 2) : Arrival := { a with hdr := { a.hdr with opcode := op, mclass := cls } }

/-- Sets some bits of W3, which a row names. -/
def withW3 (a : Arrival) (mask v : W64) : Arrival := { a with hdr := { a.hdr with w3 := (a.hdr.w3 &&& ~~~mask) ||| v } }

/-- A TLY with the TOP of a row (R189). -/
def asTly (a : Arrival) (top : W64) : Arrival := withW3 (asMsg a 0x0D 0) 0xFF top

/-- RD (R46, R98, R161). -/
def execRd (a : Arrival) (s : State) : Out := s.message (asMsg a 0x01 0) 0

/-- WR (R46, R97, R99, R161). -/
def execWr (a : Arrival) (s : State) : Out := s.message (asMsg a 0x02 0) 0

/-- ATOM (R46, R100, R161). -/
def execAtom (a : Arrival) (s : State) : Out := s.message (asMsg a 0x04 0) 0

/-- ADMIT (R60). -/
def execAdmission (a : Arrival) (s : State) : Out := s.message (asMsg a 0x08 0) 0

/-- RELEASE: an ADMIT whose slip has KIND 3, in S0[55:52] (R130, R158). -/
def execRelease (a : Arrival) (s : State) : Out :=
  s.message { asMsg a 0x08 0 with data := a.data.set 6 (0x30 ||| (a.data.getD 6 0 &&& 0x0F)) } 0

/-- FENCE with FKIND 0 (R104). -/
def execFenceFull (a : Arrival) (s : State) : Out := s.message (withW3 (asMsg a 0x0C 0) 3 0) 0

/-- FENCE with FKIND 1 (R104). -/
def execFenceRelease (a : Arrival) (s : State) : Out := s.message (withW3 (asMsg a 0x0C 0) 3 1) 0

/-- FENCE with FKIND 2 (R104). -/
def execFenceAcquire (a : Arrival) (s : State) : Out := s.message (withW3 (asMsg a 0x0C 0) 3 2) 0

/-- TLY READ (R189). -/
def execTlyRead (a : Arrival) (s : State) : Out := s.message (asTly a 0x00) 0

/-- TLY ADD (R191). -/
def execTlyAdd (a : Arrival) (s : State) : Out := s.message (asTly a 0x01) 0

/-- TLY SUB (R191). -/
def execTlySub (a : Arrival) (s : State) : Out := s.message (asTly a 0x02) 0

/-- TLY FETCH_ADD (R189, R191). -/
def execTlyFetchAdd (a : Arrival) (s : State) : Out := s.message (asTly a 0x03) 0

/-- TLY FETCH_SUB (R189, R191). -/
def execTlyFetchSub (a : Arrival) (s : State) : Out := s.message (asTly a 0x04) 0

/-- TLY WAIT_GE (R193). -/
def execTlyWaitGe (a : Arrival) (s : State) : Out := s.message (asTly a 0x08) 0

/-- TLY WAIT_EQ (R193). -/
def execTlyWaitEq (a : Arrival) (s : State) : Out := s.message (asTly a 0x09) 0

/-- TLY ARRIVE (R197). -/
def execTlyArrive (a : Arrival) (s : State) : Out := s.message (asTly a 0x10) 0

/-- TLY ARRIVE_WAIT (R197). -/
def execTlyArriveWait (a : Arrival) (s : State) : Out := s.message (asTly a 0x11) 0

/-- TLY CLAIM (R188, R189). -/
def execTlyClaim (a : Arrival) (s : State) : Out := s.message (asTly a 0x18) 0

/-- TLY SETLIMIT (R189, R190). -/
def execTlySetlimit (a : Arrival) (s : State) : Out := s.message (asTly a 0x19) 0

/-- TLY SETTIMEOUT (R189). -/
def execTlySettimeout (a : Arrival) (s : State) : Out := s.message (asTly a 0x1A) 0

/-- TLY SET (R189). -/
def execTlySet (a : Arrival) (s : State) : Out := s.message (asTly a 0x1B) 0

/-- TLY FREE (R190). -/
def execTlyFree (a : Arrival) (s : State) : Out := s.message (asTly a 0x1C) 0

/-- TLY ARM (R208). -/
def execTlyArm (a : Arrival) (s : State) : Out := s.message (asTly a 0x1D) 0

/-- TLY DISARM (R208). -/
def execTlyDisarm (a : Arrival) (s : State) : Out := s.message (asTly a 0x1E) 0

/-- OWNER_LOST (R203). -/
def execOwnerLost (a : Arrival) (s : State) : Out := s.message (asMsg a 0x0E 0) 0

/-- MGMT with MWRITE 0 (R433). -/
def execMgmtRead (a : Arrival) (s : State) : Out := s.message (withW3 (asMsg a 0x0F 0) 0x1000000 0) 0

/-- MGMT with MWRITE 1 (R433). -/
def execMgmtWrite (a : Arrival) (s : State) : Out := s.message (withW3 (asMsg a 0x0F 0) 0x1000000 0x1000000) 0

/-- CONTRIB (R146). -/
def execContrib (a : Arrival) (s : State) : Out := s.message (asMsg a 0x61 3) 3

/-- PUSH (R154). -/
def execPush (a : Arrival) (s : State) : Out := s.message (asMsg a 0x42 2) 2

/-- FWR (R114). -/
def execFwr (a : Arrival) (s : State) : Out := s.message (asMsg a 0x41 2) 2

/-- FWACK (R115, R116). -/
def execFwack (a : Arrival) (s : State) : Out := s.message (asMsg a 0x26 1) 1

/-- PUSHACK (R155). -/
def execPushack (a : Arrival) (s : State) : Out := s.message (asMsg a 0x27 1) 1

/-- RESULT: discarded (R45, R61). -/
def execResult (a : Arrival) (s : State) : Out := s.message (asMsg a 0x62 3) 3

/-- UNKNOWN_OPCODE: a header as it stands, on the class of its channel (R45). -/
def execUnknownOpcode (a : Arrival) (vc : BitVec 2) (s : State) : Out := s.message a vc.toNat

/-- HEADER_DISCARD: a header flit whose HCRC does not check. Sixteen within 1 ms take the port down (R43, R44). -/
def execHeaderDiscard (a : Arrival) (vc : BitVec 2) (s : State) : Out :=
  let p := a.port
  let i := poolOf a vc.toNat
  let n := flitsOf a.data
  if !s.inService p then .next s
  else if (s.port p).free.getD i 0 < n then .fault (.portPoolOverrun p)
  else
    let s := (s.bump 0x2041 3).count { code := 0x0102, port := some p }
    let s := if a.data.isEmpty then s else s.count { code := 0x0104, port := some p, adds := ceilDiv a.data.length 64 }
    let q := s.port p
    let recent := (s.now :: q.discards).filter fun t => s.now < t + 1000000
    let s := (s.setPort p { q with free := q.free.set i (q.free.getD i 0 - n), discards := recent }).freePool p i n
    .next (if recent.length < 16 then s
      else ((s.setPort p { s.port p with linkDown := true }).emit (.linkDown p)).dropPort p)

/-! ### Outbound: credits and the escape channel (R37, R40, R56) -/

/-- The messages of a class that wait on a port leave while its credits cover them, in their order (R40). -/
def State.flush (p : Nat) (cls : BitVec 2) : Nat → State → State
  | 0, s => s
  | n + 1, s =>
    let q := s.port p
    match q.outq.find? fun m => m.hdr.mclass == cls with
    | none => s
    | some m =>
      if q.credits.getD cls.toNat 0 < flitsOf m.data then s
      else State.flush p cls n ((s.setPort p { q with outq := q.outq.erase m }).depart p m.hdr m.data false)

/-- CREDIT_RETURN: CR0 or CR1 grants flits on a virtual channel (R37, R40). -/
def execCreditReturn (port : Nat) (cr : BitVec 9) (s : State) : Out :=
  if !s.inService port || !cr.getLsbD 8 then .next s
  else
    let vc := (cr.extractLsb' 5 3).toNat
    let n := ((cr.extractLsb' 0 4).toNat + 1) * if cr.getLsbD 4 then 256 else 1
    let q := s.port port
    let s := s.setPort port (q.setCredits s.now vc (q.credits.getD vc 0 + n))
    .next (if vc < 4 then State.flush port (BitVec.ofNat 2 vc) q.outq.length s else s)

/-- A copy of a completed tile that waits for credits of a class on a port, if one does: its consignment, tile and place (R153). -/
def State.waitingCopy (s : State) (p : Nat) (cls : BitVec 2) : Option (Con × Tile × Nat × Dest) :=
  s.cons.findSome? fun c => c.tiles.findSome? fun t =>
    if t.phase != .posted || !(t.digest == 0 || t.digest == 3) then none
    else (List.range c.slip.dests.length).findSome? fun k =>
      match c.slip.dests[k]? with
      | none => none
      | some d =>
        if t.copies.getD k .dropped == .waiting && s.pairPort d.port == some p && (if d.push then cls = 2 else cls = 3) &&
          !(d.push && s.obj 0x2D00 0x13 == 1) then some (c, t, k, d) else none

/-- The time after which a message of `n` flits that is ready since `t` may fall back: the escape threshold after the credits of its class
became too few for it (R56). -/
def State.escapeAt (s : State) (p cls n t : Nat) : Nat := max t ((s.port p).lastCover cls n) + s.obj 0x2041 2 * 1000

/-- ESCAPE_FALLBACK: a message that has waited the escape threshold for normal credits leaves on the escape channel, if its credits
there cover it (R56). -/
def execEscapeFallback (port : Nat) (cls : BitVec 2) (s : State) : Out :=
  let q := s.port port
  let esc := q.credits.getD (4 + cls.toNat) 0
  let nrm := q.credits.getD cls.toNat 0
  if !s.inService port then .next s
  else match q.outq.find? fun m => m.hdr.mclass == cls with
    | some m =>
      if esc < flitsOf m.data || flitsOf m.data ≤ nrm then .next s
      else
        let s := s.reach (s.escapeAt port cls.toNat (flitsOf m.data) m.since)
        let s := (s.setPort port { s.port port with outq := q.outq.erase m }).depart port m.hdr m.data true
        .next (State.flush port cls q.outq.length s)
    | none =>
      match s.waitingCopy port cls with
      | none => .next s
      | some (c, t, k, d) =>
        let tag := s.freeTag 65536 (s.draw.1.setWidth 16)
        let (h, data) := s.copyMsg c t d tag
        if esc < flitsOf data || flitsOf data ≤ nrm then .next s
        else
          let s := (s.draw.2.reach (s.escapeAt port cls.toNat (flitsOf data) t.doneAt)).depart port h data true
          .next (s.setCopy c.cid t.idx k (if d.push then .pushed tag (d.daddr / 2 ^ 42) else .sent))

/-! ### Sequences in time (R52, R96) -/

/-- ORD_RELEASE: the next request of a sequence is released once its predecessor is accepted (R96). -/
def execOrdRelease (key : SrcKey) (s : State) : Out := .next (s.ordNext key)

/-- ORDERING_TIMEOUT: a request has been held for the ordering timeout and is answered TIMEOUT. Unless the request that the sequence expects
next is among those held, which a SYNC may leave so, every request held with it is answered the same, and the sequence state is dropped (R52). -/
def execOrderingTimeout (key : SrcKey) (seq : BitVec 16) (s : State) : Out :=
  let q := s.seqOf key
  match q.held.find? fun h => h.msg.hdr.seq == seq with
  | none => .next s
  | some h =>
    let s := s.reach (h.at_ + s.obj 0x2041 1 * 1000)
    let arrived := q.held.any fun x => x.id != h.id && q.next == some x.msg.hdr.seq
    let out := if arrived then [h] else q.held
    let s := if arrived then s.putSeq { q with held := q.held.erase h }
      else if q.turn.isEmpty then { s with seqs := s.seqs.filter fun x => x.key != key }
      else s.putSeq { q with held := [], next := none }
    .next (out.foldl (fun t h => (t.refuse h.msg stTimeout).finishMsg h.msg h.msg.hdr.mclass.toNat h.id) s)

/-- A request of a sequence is held or executing (R52). -/
def State.seqBusy (s : State) (key : SrcKey) : Bool :=
  let q := s.seqOf key
  let mine (a : Arrival) : Bool := a.hdr.ord && seqKey a == key
  !q.held.isEmpty || !q.turn.isEmpty || s.ops.any (fun o => mine o.msg) || s.waits.any (fun w => mine w.msg) ||
  s.tal.waiters.any (fun w => mine w.msg) ||
  s.cons.any fun c => (c.state == .admitting && mine c.msg) || (match c.release with | some a => mine a | none => false)

/-- SEQ_STATE_DROP: a source's sequence state is dropped the ordering timeout after its last ORD request was answered (R52). -/
def execSeqStateDrop (key : SrcKey) (s : State) : Out :=
  match s.seqs.find? fun q => q.key == key with
  | none => .next s
  | some q =>
    if s.seqBusy key then .next s
    else
      let s := s.reach (q.idleAt + s.obj 0x2041 1 * 1000)
      .next { s with seqs := s.seqs.filter fun x => x.key != key }

end Sys2Proof.Machine
end

