-- ==== Sys2Proof/Machine/TestAccess.lean ====
section
/-! DEFINITION. The test access port, and the timed ends of Jostle (R457, R460, R464 to R468). -/

namespace Sys2Proof.Machine

/-! ### Jostle (R457, R460) -/

/-- JOSTLE_TIMEOUT: the duration has passed since the enable (R460). -/
def execJostleTimeout (s : State) : Out :=
  match s.test.jostleAt with
  | none => .next s
  | some t => .next (s.reach (t + s.obj 0x3800 2 * 1000000000)).endJostle

/-- JOSTLE_CREDIT_HOLD_END: the withheld credits are returned in full (R457). -/
def execJostleCreditHoldEnd (port : Nat) (cls : BitVec 2) (s : State) : Out :=
  match (s.port port).holds.find? fun h => h.cls == cls.toNat with
  | none => .next s
  | some h =>
    let s := s.reach h.until_
    let q := s.port port
    let s := s.setPort port { q with holds := q.holds.erase h }
    .next ((creditWords cls.toNat h.withheld).foldl (fun t c => t.emit (.credit port c)) s)

/-! ### The test access port (R464 to R468) -/

/-- Intrusive instructions (R464). -/
def intrusive (ir : BitVec 8) : Bool := [0x03, 0x04, 0x05, 0x10, 0x11, 0x20].contains ir.toNat

/-- The instruction that acts: an unassigned code, and an intrusive one while TESTEN is low, act as BYPASS (R464, R466). -/
def State.irActing (s : State) : BitVec 8 :=
  if intrusive s.test.ir && s.boot.testen then s.test.ir
  else if s.test.ir = 0x01 || s.test.ir = 0x02 then s.test.ir
  else 0xFF

/-- The levels with which the boundary register drives the outputs, if it does: under EXTEST and CLAMP (R464). -/
def State.boundary (s : State) : Option (List Bool) :=
  if s.irActing = 0x03 || s.irActing = 0x04 then some s.test.pins else none

/-- The outputs float: under HIGHZ (R464). -/
def State.floating (s : State) : Bool := s.irActing = 0x05

/-- Loads an instruction. The bypass register captures 0 when it is the one selected (IEEE 1149.1, log 34). -/
def State.loadIr (s : State) (code : BitVec 8) : State :=
  let s := { s with test := { s.test with ir := code } }
  if s.irActing = 0xFF then { s with test := { s.test with bypassBit := false } } else s

/-- BYPASS: one bit is shifted through the bypass register (R464). -/
def execBypass (tdi : Bool) (s : State) : Out :=
  let s := s.loadIr 0xFF
  .next (({ s with test := { s.test with bypassBit := tdi } } : State).emit (.tdo [s.test.bypassBit]))

/-- The identity code of a size (R465). -/
def Size.idcode (z : Size) : BitVec 32 := (0x2 : BitVec 4) ++ BitVec.ofNat 16 (0x4B00 + z.bays) ++ Config.manufacturer ++ (1 : BitVec 1)

/-- IDCODE: the code is shifted out, bit 0 first (R465). -/
def execIdcode (s : State) : Out :=
  .next ((s.loadIr 0x01).emit (.tdo ((List.range 32).map fun i => s.size.idcode.getLsbD i)))

/-- SAMPLE/PRELOAD: the pins' levels are taken into the boundary register and shifted out (R464). -/
def execSamplePreload (pins : List Bool) (s : State) : Out :=
  let s := s.loadIr 0x02
  .next (({ s with test := { s.test with pins := pins } } : State).emit (.tdo pins))

/-- EXTEST: the boundary register drives the outputs while TESTEN is high (R464, R466). -/
def execExtest (s : State) : Out := .next (s.loadIr 0x03)

/-- CLAMP: the outputs hold the boundary register's levels while TESTEN is high (R464, R466). -/
def execClamp (s : State) : Out := .next (s.loadIr 0x04)

/-- HIGHZ: the outputs float while TESTEN is high (R464, R466). -/
def execHighz (s : State) : Out := .next (s.loadIr 0x05)

/-- WSEL: selects the wrapper of an island (R466, R467). -/
def execWsel (wrapper : Nat) (s : State) : Out :=
  let s := s.loadIr 0x10
  .next (if s.boot.testen then { s with test := { s.test with wrapper := BitVec.ofNat 9 wrapper } } else s)

/-- WSP: loads the selected wrapper's instruction register through its serial port (R466, R467). -/
def execWsp (instr : Nat) (s : State) : Out :=
  let s := s.loadIr 0x11
  .next (if s.boot.testen then { s with test := { s.test with wirInstr := instr } } else s)

/-- D3D: access to the Carrel of a bay (R466, R468). -/
def execD3d (bay : Nat) (s : State) : Out :=
  let s := s.loadIr 0x20
  .next (if s.boot.testen then { s with test := { s.test with bayReg := BitVec.ofNat 5 bay } } else s)

/-- TEST_LOGIC_RESET: the instruction is IDCODE (R465). -/
def execTestLogicReset (s : State) : Out := .next { s with test := { s.test with ir := 0x01 } }

end Sys2Proof.Machine
end

