-- ==== Sys2Proof/Machine/Dispatch.lean ====
section
/-! DEFINITION. The effect of a command on everything but the queue: one arm per constructor of `Instr`. -/

namespace Sys2Proof.Machine

def exec (i : Instr) (s : State) : Host.Outcome State Fault Refusal :=
  match i with
  | .rd a => Sys2Proof.Machine.execRd a s
  | .wr a => Sys2Proof.Machine.execWr a s
  | .atom a => Sys2Proof.Machine.execAtom a s
  | .admission a => Sys2Proof.Machine.execAdmission a s
  | .release a => Sys2Proof.Machine.execRelease a s
  | .fenceFull a => Sys2Proof.Machine.execFenceFull a s
  | .fenceRelease a => Sys2Proof.Machine.execFenceRelease a s
  | .fenceAcquire a => Sys2Proof.Machine.execFenceAcquire a s
  | .tlyRead a => Sys2Proof.Machine.execTlyRead a s
  | .tlyAdd a => Sys2Proof.Machine.execTlyAdd a s
  | .tlySub a => Sys2Proof.Machine.execTlySub a s
  | .tlyFetchAdd a => Sys2Proof.Machine.execTlyFetchAdd a s
  | .tlyFetchSub a => Sys2Proof.Machine.execTlyFetchSub a s
  | .tlyWaitGe a => Sys2Proof.Machine.execTlyWaitGe a s
  | .tlyWaitEq a => Sys2Proof.Machine.execTlyWaitEq a s
  | .tlyArrive a => Sys2Proof.Machine.execTlyArrive a s
  | .tlyArriveWait a => Sys2Proof.Machine.execTlyArriveWait a s
  | .tlyClaim a => Sys2Proof.Machine.execTlyClaim a s
  | .tlySetlimit a => Sys2Proof.Machine.execTlySetlimit a s
  | .tlySettimeout a => Sys2Proof.Machine.execTlySettimeout a s
  | .tlySet a => Sys2Proof.Machine.execTlySet a s
  | .tlyFree a => Sys2Proof.Machine.execTlyFree a s
  | .tlyArm a => Sys2Proof.Machine.execTlyArm a s
  | .tlyDisarm a => Sys2Proof.Machine.execTlyDisarm a s
  | .ownerLost a => Sys2Proof.Machine.execOwnerLost a s
  | .mgmtRead a => Sys2Proof.Machine.execMgmtRead a s
  | .mgmtWrite a => Sys2Proof.Machine.execMgmtWrite a s
  | .contrib a => Sys2Proof.Machine.execContrib a s
  | .push a => Sys2Proof.Machine.execPush a s
  | .fwr a => Sys2Proof.Machine.execFwr a s
  | .fwack a => Sys2Proof.Machine.execFwack a s
  | .pushack a => Sys2Proof.Machine.execPushack a s
  | .unknownOpcode a vc => Sys2Proof.Machine.execUnknownOpcode a vc s
  | .headerDiscard a vc => Sys2Proof.Machine.execHeaderDiscard a vc s
  | .creditReturn port cr => Sys2Proof.Machine.execCreditReturn port cr s
  | .escapeFallback port cls => Sys2Proof.Machine.execEscapeFallback port cls s
  | .ordRelease key => Sys2Proof.Machine.execOrdRelease key s
  | .orderingTimeout key seq => Sys2Proof.Machine.execOrderingTimeout key seq s
  | .seqStateDrop key => Sys2Proof.Machine.execSeqStateDrop key s
  | .portConfigWrite sess port value => Sys2Proof.Machine.execPortConfigWrite sess port value s
  | .bayIngress op part bank row => Sys2Proof.Machine.execBayIngress op part bank row s
  | .stageConfirm op bay => Sys2Proof.Machine.execStageConfirm op bay s
  | .mirrorTimeout partner tag => Sys2Proof.Machine.execMirrorTimeout partner tag s
  | .validBitFetch line ok1 ok2 => Sys2Proof.Machine.execValidBitFetch line ok1 ok2 s
  | .bayCommandIssue bay => Sys2Proof.Machine.execBayCommandIssue bay s
  | .requestAged bay op part => Sys2Proof.Machine.execRequestAged bay op part s
  | .rowIdlePrecharge bay pc bank => Sys2Proof.Machine.execRowIdlePrecharge bay pc bank s
  | .refreshIntervalDue bay pc bank => Sys2Proof.Machine.execRefreshIntervalDue bay pc bank s
  | .burstHoldEnd bay pc => Sys2Proof.Machine.execBurstHoldEnd bay pc s
  | .refreshLimiter bay pc bank => Sys2Proof.Machine.execRefreshLimiter bay pc bank s
  | .stackReadComplete op part err reread inner => Sys2Proof.Machine.execStackReadComplete op part err reread inner s
  | .carrelWriteback line bank row evict => Sys2Proof.Machine.execCarrelWriteback line bank row evict s
  | .shelfReadingStep bay target err reread inner => Sys2Proof.Machine.execShelfReadingStep bay target err reread inner s
  | .pigeonholeEccError bay doubleBit => Sys2Proof.Machine.execPigeonholeEccError bay doubleBit s
  | .retrievalContribution cid tile errs => Sys2Proof.Machine.execRetrievalContribution cid tile errs s
  | .coalescingWindow cid tile => Sys2Proof.Machine.execCoalescingWindow cid tile s
  | .batchApply cid tile lane ok lineErr => Sys2Proof.Machine.execBatchApply cid tile lane ok lineErr s
  | .tileTimeout cid tile => Sys2Proof.Machine.execTileTimeout cid tile s
  | .postmarkDigest cid tile => Sys2Proof.Machine.execPostmarkDigest cid tile s
  | .dispatchCopy cid tile dest => Sys2Proof.Machine.execDispatchCopy cid tile dest s
  | .dispatchTimeout cid tile dest => Sys2Proof.Machine.execDispatchTimeout cid tile dest s
  | .streamTileRead cid errs => Sys2Proof.Machine.execStreamTileRead cid errs s
  | .consignmentComplete cid => Sys2Proof.Machine.execConsignmentComplete cid s
  | .sortingFrameSlot => Sys2Proof.Machine.execSortingFrameSlot s
  | .leaseReturn bay cls => Sys2Proof.Machine.execLeaseReturn bay cls s
  | .meterRateWrite sess cls sub value => Sys2Proof.Machine.execMeterRateWrite sess cls sub value s
  | .gateChange => Sys2Proof.Machine.execGateChange s
  | .timetableCommit sess => Sys2Proof.Machine.execTimetableCommit sess s
  | .timetableTakeEffect => Sys2Proof.Machine.execTimetableTakeEffect s
  | .stageClear sess => Sys2Proof.Machine.execStageClear sess s
  | .stageValidate sess => Sys2Proof.Machine.execStageValidate sess s
  | .commitKeyFirst sess key => Sys2Proof.Machine.execCommitKeyFirst sess key s
  | .commitKeySecond sess key => Sys2Proof.Machine.execCommitKeySecond sess key s
  | .commitKeyExpiry => Sys2Proof.Machine.execCommitKeyExpiry s
  | .commitDrainEnd => Sys2Proof.Machine.execCommitDrainEnd s
  | .commitDrainTimeout => Sys2Proof.Machine.execCommitDrainTimeout s
  | .moveUnitCopy first bad => Sys2Proof.Machine.execMoveUnitCopy first bad s
  | .waiterTimeout id => Sys2Proof.Machine.execWaiterTimeout id s
  | .barrierAnswerHandover tally => Sys2Proof.Machine.execBarrierAnswerHandover tally s
  | .armedRelease tally => Sys2Proof.Machine.execArmedRelease tally s
  | .todLockChange locked netTime => Sys2Proof.Machine.execTodLockChange locked netTime s
  | .tallyDebugSet sess value => Sys2Proof.Machine.execTallyDebugSet sess value s
  | .tallyForcedFree sess => Sys2Proof.Machine.execTallyForcedFree sess s
  | .tallyCreateShared sess value => Sys2Proof.Machine.execTallyCreateShared sess value s
  | .tallySetLimit sess value => Sys2Proof.Machine.execTallySetLimit sess value s
  | .tallySetWtimeout sess value => Sys2Proof.Machine.execTallySetWtimeout sess value s
  | .twinCheckerError twin => Sys2Proof.Machine.execTwinCheckerError twin s
  | .twinMismatch => Sys2Proof.Machine.execTwinMismatch s
  | .twinReexecuteDone agree => Sys2Proof.Machine.execTwinReexecuteDone agree s
  | .twinRejoin sess => Sys2Proof.Machine.execTwinRejoin sess s
  | .twinRejoinStepDone ok => Sys2Proof.Machine.execTwinRejoinStepDone ok s
  | .tubeLinkFail part => Sys2Proof.Machine.execTubeLinkFail part s
  | .crossingParityError place => Sys2Proof.Machine.execCrossingParityError place s
  | .governorWindow uncapped carrelRt carrelOther collation => Sys2Proof.Machine.execGovernorWindow uncapped carrelRt carrelOther collation s
  | .coreRailLoss vaux => Sys2Proof.Machine.execCoreRailLoss vaux s
  | .bayRailLoss bay rail => Sys2Proof.Machine.execBayRailLoss bay rail s
  | .railRestore => Sys2Proof.Machine.execRailRestore s
  | .refclkLoss => Sys2Proof.Machine.execRefclkLoss s
  | .refclkTimeout => Sys2Proof.Machine.execRefclkTimeout s
  | .brstRelease canId canRates i3cStatic => Sys2Proof.Machine.execBrstRelease canId canRates i3cStatic s
  | .blockReset sess => Sys2Proof.Machine.execBlockReset sess s
  | .proceed sess => Sys2Proof.Machine.execProceed sess s
  | .bringupStepComplete report => Sys2Proof.Machine.execBringupStepComplete report s
  | .bringupStepTimeout => Sys2Proof.Machine.execBringupStepTimeout s
  | .hostWaitTimeout => Sys2Proof.Machine.execHostWaitTimeout s
  | .testenRise => Sys2Proof.Machine.execTestenRise s
  | .calRunRequest sess => Sys2Proof.Machine.execCalRunRequest sess s
  | .calIntervalExpiry bay pc => Sys2Proof.Machine.execCalIntervalExpiry bay pc s
  | .retrainWindowOpen bay pc => Sys2Proof.Machine.execRetrainWindowOpen bay pc s
  | .retrainWindowEnd bay pc counts => Sys2Proof.Machine.execRetrainWindowEnd bay pc counts s
  | .calRunTimeout bay pc => Sys2Proof.Machine.execCalRunTimeout bay pc s
  | .slewStep bay pc => Sys2Proof.Machine.execSlewStep bay pc s
  | .calRecordWrite sess record => Sys2Proof.Machine.execCalRecordWrite sess record s
  | .erasureListWrite sess lanes => Sys2Proof.Machine.execErasureListWrite sess lanes s
  | .shiftRequest sess bay point => Sys2Proof.Machine.execShiftRequest sess bay point s
  | .shiftDeferralExpiry bay => Sys2Proof.Machine.execShiftDeferralExpiry bay s
  | .shiftGrant bay => Sys2Proof.Machine.execShiftGrant bay s
  | .bandSwap bay => Sys2Proof.Machine.execBandSwap bay s
  | .shiftComplete bay failed => Sys2Proof.Machine.execShiftComplete bay failed s
  | .comparatorChange bay sensor threshold set => Sys2Proof.Machine.execComparatorChange bay sensor threshold set s
  | .stackTempPoll bay temp => Sys2Proof.Machine.execStackTempPoll bay temp s
  | .sensorSchedule => Sys2Proof.Machine.execSensorSchedule s
  | .sensorReadNow sess => Sys2Proof.Machine.execSensorReadNow sess s
  | .sensorReadingDone bay sensor temp => Sys2Proof.Machine.execSensorReadingDone bay sensor temp s
  | .ladderStepDown bay => Sys2Proof.Machine.execLadderStepDown bay s
  | .ladderStepUp bay => Sys2Proof.Machine.execLadderStepUp bay s
  | .tripRestart bay r => Sys2Proof.Machine.execTripRestart bay r s
  | .coldRestart bay r => Sys2Proof.Machine.execColdRestart bay r s
  | .withdrawalDeclaration sess value => Sys2Proof.Machine.execWithdrawalDeclaration sess value s
  | .orderedFence sess bay => Sys2Proof.Machine.execOrderedFence sess bay s
  | .fenceLift sess bay report => Sys2Proof.Machine.execFenceLift sess bay report s
  | .healthScoreUpdate => Sys2Proof.Machine.execHealthScoreUpdate s
  | .shadowModeWrite sess value => Sys2Proof.Machine.execShadowModeWrite sess value s
  | .newRun sess => Sys2Proof.Machine.execNewRun sess s
  | .replaySelect sess value => Sys2Proof.Machine.execReplaySelect sess value s
  | .pauseRequest sess => Sys2Proof.Machine.execPauseRequest sess s
  | .paused => Sys2Proof.Machine.execPaused s
  | .pauseTimeout => Sys2Proof.Machine.execPauseTimeout s
  | .resume sess => Sys2Proof.Machine.execResume sess s
  | .postmarkSelfTest sess => Sys2Proof.Machine.execPostmarkSelfTest sess s
  | .login sess bytes => Sys2Proof.Machine.execLogin sess bytes s
  | .logout sess => Sys2Proof.Machine.execLogout sess s
  | .sessionIdleTimeout sess => Sys2Proof.Machine.execSessionIdleTimeout sess s
  | .loginLockoutEnd sess => Sys2Proof.Machine.execLoginLockoutEnd sess s
  | .catalogueWrite sess index sub value => Sys2Proof.Machine.execCatalogueWrite sess index sub value s
  | .dataPortOpenRead sess => Sys2Proof.Machine.execDataPortOpenRead sess s
  | .dataPortOpenWrite sess => Sys2Proof.Machine.execDataPortOpenWrite sess s
  | .dataPortClose sess => Sys2Proof.Machine.execDataPortClose sess s
  | .dataPortAbandon sess => Sys2Proof.Machine.execDataPortAbandon sess s
  | .dataPortWindowRead sess => Sys2Proof.Machine.execDataPortWindowRead sess s
  | .dataPortWindowWrite sess bytes => Sys2Proof.Machine.execDataPortWindowWrite sess bytes s
  | .dataPortHoldTimeout => Sys2Proof.Machine.execDataPortHoldTimeout s
  | .eventRead sess => Sys2Proof.Machine.execEventRead sess s
  | .eventReadTimeout sess => Sys2Proof.Machine.execEventReadTimeout sess s
  | .canSdoFrame ident frame => Sys2Proof.Machine.execCanSdoFrame ident frame s
  | .canTransferAbandon ch => Sys2Proof.Machine.execCanTransferAbandon ch s
  | .heartbeat => Sys2Proof.Machine.execHeartbeat s
  | .i3cRequest bytes => Sys2Proof.Machine.execI3cRequest bytes s
  | .i3cAnswerRead => Sys2Proof.Machine.execI3cAnswerRead s
  | .entdaa addr => Sys2Proof.Machine.execEntdaa addr s
  | .setdasa static addr => Sys2Proof.Machine.execSetdasa static addr s
  | .rstdaa => Sys2Proof.Machine.execRstdaa s
  | .enec bits => Sys2Proof.Machine.execEnec bits s
  | .disec bits => Sys2Proof.Machine.execDisec bits s
  | .getpid => Sys2Proof.Machine.execGetpid s
  | .getbcr => Sys2Proof.Machine.execGetbcr s
  | .getdcr => Sys2Proof.Machine.execGetdcr s
  | .getstatus => Sys2Proof.Machine.execGetstatus s
  | .setmwl len => Sys2Proof.Machine.execSetmwl len s
  | .setmrl len => Sys2Proof.Machine.execSetmrl len s
  | .getmwl => Sys2Proof.Machine.execGetmwl s
  | .getmrl => Sys2Proof.Machine.execGetmrl s
  | .counterFreeze sess => Sys2Proof.Machine.execCounterFreeze sess s
  | .counterResume sess => Sys2Proof.Machine.execCounterResume sess s
  | .counterClearAll sess => Sys2Proof.Machine.execCounterClearAll sess s
  | .counterClear sess => Sys2Proof.Machine.execCounterClear sess s
  | .counterControlWrite sess counter value => Sys2Proof.Machine.execCounterControlWrite sess counter value s
  | .jostleEnable sess => Sys2Proof.Machine.execJostleEnable sess s
  | .jostleDisable sess => Sys2Proof.Machine.execJostleDisable sess s
  | .jostleTimeout => Sys2Proof.Machine.execJostleTimeout s
  | .bypass tdi => Sys2Proof.Machine.execBypass tdi s
  | .idcode => Sys2Proof.Machine.execIdcode s
  | .samplePreload pins => Sys2Proof.Machine.execSamplePreload pins s
  | .extest => Sys2Proof.Machine.execExtest s
  | .clamp => Sys2Proof.Machine.execClamp s
  | .highz => Sys2Proof.Machine.execHighz s
  | .wsel wrapper => Sys2Proof.Machine.execWsel wrapper s
  | .wsp instr => Sys2Proof.Machine.execWsp instr s
  | .d3d bay => Sys2Proof.Machine.execD3d bay s
  | .result a => Sys2Proof.Machine.execResult a s
  | .carrelReadComplete op part err => Sys2Proof.Machine.execCarrelReadComplete op part err s
  | .reservationConfirm cid bay ok => Sys2Proof.Machine.execReservationConfirm cid bay ok s
  | .refclkReturn => Sys2Proof.Machine.execRefclkReturn s
  | .brstAssert => Sys2Proof.Machine.execBrstAssert s
  | .testLogicReset => Sys2Proof.Machine.execTestLogicReset s
  | .testenFall => Sys2Proof.Machine.execTestenFall s
  | .jostleCreditHoldEnd port cls => Sys2Proof.Machine.execJostleCreditHoldEnd port cls s

end Sys2Proof.Machine
end

