-- ==== Sys2Proof/Safety.lean ====
section
/-! DEFINITION. The words in which claims speak: the invariant of a state, the conditions under which an access or a message is taken,
and which commands carry a message. -/

namespace Sys2Proof.Machine

/-! ### The invariant -/

/-- Memory and the Tallies are in their canonical form, each key once and rising, and the block has the ports and bays of its size and
the 25 Daybook streams (R6, R397). -/
abbrev State.Inv (s : State) : Prop :=
  s.mem.wf = true ∧ s.ports.length = s.size.ports ∧ s.bays.length = s.size.bays ∧ s.day.streams.length = 25 ∧ risingFrom 0 s.tal.tallies = true

/-! ### Catalogue accesses -/

/-- A write of the value `v` to an object passes every check of R428 before the object's own: it reaches the Catalogue in an open
session, the object exists and may be written, the privilege and the length suffice, the value is in range, and the stopped state
does not forbid it. -/
def State.accepts (s : State) (k : Sess) (i sub v : Nat) : Bool :=
  s.reaches k && (s.session k).isSome &&
  match s.objDef i sub with
  | none => false
  | some r =>
    (r.acc == .rw || r.acc == .wo) && !(i == 0x2600 && sub == 2) &&
    (if sessClerk k then r.clerk || s.clerkPair i sub else s.mayWrite (s.current k) r i sub) && decide (v < 256 ^ r.size) && r.admits v &&
    (!s.stopped || stoppedWrite i sub)

/-- The state in which an access executes: its session is marked used, and a lapsed hold of the Data Port has ended (R420, R434). -/
def State.seated (s : State) (k : Sess) : State := (s.setSession (s.current k)).lapsePort

/-- An object that run bookkeeping may change beside any command: the run flags, the counts of the Daybook and the marks of replay
(0x2E00:06, :08, :09, :0B and 0x2E01). -/
def dayObject (i sub : Nat) : Bool := (i == 0x2E00 && [6, 8, 9, 0x0B].contains sub) || i == 0x2E01

/-- An SDO upload or an I3C request of the session waits for the answer of an access (R430, R432). -/
def State.waitsOn (s : State) : Sess → Bool
  | .can ch => match s.sdo ch with | some x => x.wait | none => false
  | .i3c => match s.buses.i3cAnswer with | some (1, _, _) => true | _ => false
  | _ => false

/-- The objects whose write has no effect but their new value: settings that are read where they are used. -/
def plainWrite (i sub : Nat) : Bool :=
  (i == 0x1017 && sub == 0) || (0x1201 ≤ i && i ≤ 0x1203 && (sub == 1 || sub == 2)) ||
  [(0x2000, 7), (0x2000, 8), (0x2003, 1), (0x2041, 1), (0x2041, 2), (0x2050, 1), (0x2060, 2), (0x2070, 1), (0x2070, 2), (0x2080, 1),
    (0x2090, 2), (0x2400, 0x0E), (0x2700, 2), (0x2700, 3), (0x2700, 4), (0x2800, 6), (0x2A00, 5), (0x2B00, 1), (0x2B00, 2), (0x2B00, 3),
    (0x2B00, 4), (0x2B00, 5), (0x2C00, 1), (0x2C00, 4), (0x2C00, 5), (0x2D00, 7), (0x2D00, 8), (0x2E00, 0x0F), (0x3690, 2), (0x3690, 3),
    (0x3800, 2), (0x3800, 3)].contains (i, sub) ||
  (0x2100 ≤ i && i < 0x2118 && [1, 2, 3, 4, 6, 7, 8, 9, 0x0A, 0x0B, 0x0D].contains sub) ||
  (0x2600 ≤ i && i < 0x2640 && [2, 3, 4].contains sub)

/-- The objects whose read has no effect and no condition of its own: not the window, the event queue, the test mode, and not a
counter's value, whose sample time the session keeps (R302, R434, R440, R450). -/
def plainRead (i sub : Nat) : Bool :=
  !((i == 0x5F00 && sub == 4) || (i == 0x2090 && sub == 3) || i == 0x2C60 || (i == 0x3680 && sub == 2))

/-- What an accepted access of a session leaves (R420, R428, R430, R431): the state that its effect makes, but for the answer, which is
the abort code and the value on the session's own transport, the Daybook's record of the write with the run flags, and the
circulation counters. An SDO upload or an I3C request that waits gets its answer in its buffer. While the twins' outputs differ, the
answer waits with their others (R16, R18). -/
def Settled (k : Sess) (abort : Nat) (value : List Byte) (u t : State) : Prop :=
  t = { u with wire := t.wire, objs := t.objs, day := t.day, buses := t.buses, twins := t.twins
               test := { u.test with ctrs := t.test.ctrs } } ∧
  (∀ i sub, sub < 256 → dayObject i sub = false → t.obj i sub = u.obj i sub) ∧
  (if u.twins.disputed then t.wire = u.wire ∧ t.buses = u.buses ∧ t.twins = (u.holdOut (.cat k none abort value)).twins
   else t.twins = u.twins ∧ (u.waitsOn k = false → t.wire = Wire.cat k abort value :: u.wire ∧ t.buses = u.buses))

/-- The state with some objects at some values, set one after the other. -/
def State.sets (s : State) (l : List (Nat × Nat × Nat)) : State := l.foldl (fun t e => t.setObj e.1 e.2.1 e.2.2) s

/-- Nobody is told of an event: notifications are off and no session's read waits (R440). -/
def State.silent (s : State) : Bool := s.obj 0x2090 2 == 0 && s.sessions.all fun x => x.evWait.isEmpty

/-- A management event has entered the queue and is counted, and nobody is told (R438, R440). -/
def State.raised (s : State) (code bay : Nat) (aux : Nat := 0) (arg : Nat := 0) : State :=
  { s.setObj 0x2090 1 (s.obj 0x2090 1 + 1) with
    events := { s.events with
      queue := ({ eseq := s.events.next, etime := s.now, ecode := code, ebay := bay, eaux := aux, earg := arg } :: s.events.queue).take 256
      next := s.events.next + 1 } }

/-- A quiet block: nothing watches it or is told of events, nothing is in flight, waits or is held, no consignment, Shelf List entry or
guarantee is there, and it is not in determinism mode. -/
def State.idle (s : State) : Bool :=
  s.obj 0x2E00 1 != 1 && s.obj 0x2E00 0x0B != 2 && s.obj 0x2E00 0x0B != 3 && s.setCounters.isEmpty && s.test.jostleAt.isNone &&
  s.test.tagged.isEmpty && s.ops.isEmpty && s.waits.isEmpty && s.seqs.isEmpty && s.cons.isEmpty && s.partners.isEmpty &&
  s.tal.waiters.isEmpty && s.shelf.entries.isEmpty && s.shelf.commit.isNone && !s.determinism && s.silent && s.guarSum == 0 &&
  s.frank.gforce.isEmpty && s.twins.held.isEmpty && s.bays.all fun y => y.sched.queue.isEmpty

/-- A bay of a quiet block at its fence cycle: the cause, its runs gone, and the event (R326, R367, R439). -/
def State.fencedNow (s : State) (b cause : Nat) : State :=
  (s.modBay b fun y =>
    { y with repair := { y.repair with fence := cause }, train := { y.train with runs := [], requested := [], window := none } }).raised
    0x30 b cause

/-- The state at an instant, or now where that has passed: only the clock differs. -/
def State.when (s : State) (t : Nat) : State := { s with now := max s.now t }

/-- The state `t` is `u`, with the objects of `s` but for the listed ones, which have the listed values. -/
def Leaves (s t u : State) (l : List (Nat × Nat × Nat)) : Prop :=
  t = { u with objs := t.objs } ∧ (∀ e ∈ l, t.obj e.1 e.2.1 = e.2.2) ∧
  ∀ i sub, sub < 256 → (∀ e ∈ l, (i, sub) ≠ (e.1, e.2.1)) → t.obj i sub = s.obj i sub

/-- The number of management events raised since reset, after one more: an entry for `Leaves` (0x2090:01). -/
def State.oneEvent (s : State) : Nat × Nat × Nat := (0x2090, 1, s.obj 0x2090 1 + 1)

/-- A quiet block in the stopped state (R19), with its event. -/
def State.stoppedNow (s : State) : State :=
  ({ s with boot := { s.boot with code := 0x31 }, twins := { s.twins with state := 3, rejoin := 0, disputed := false, held := [] } } : State).raised 0x80 0xFF

/-! ### Messages -/

/-- The message that a command carries. -/
def msgOf : Instr → Option Arrival
  | .rd a | .wr a | .atom a | .admission a | .release a | .fenceFull a | .fenceRelease a | .fenceAcquire a
  | .tlyRead a | .tlyAdd a | .tlySub a | .tlyFetchAdd a | .tlyFetchSub a | .tlyWaitGe a | .tlyWaitEq a | .tlyArrive a
  | .tlyArriveWait a | .tlyClaim a | .tlySetlimit a | .tlySettimeout a | .tlySet a | .tlyFree a | .tlyArm a | .tlyDisarm a
  | .ownerLost a | .mgmtRead a | .mgmtWrite a | .contrib a | .push a | .fwr a | .fwack a | .pushack a | .result a
  | .unknownOpcode a _ | .headerDiscard a _ => some a
  | _ => none

/-- The channel that a command's message arrives on (R35, R45): its row's, or the one named. -/
def channelOf : Instr → Option Nat
  | .unknownOpcode _ vc | .headerDiscard _ vc => some vc.toNat
  | .fwack _ | .pushack _ => some 1
  | .push _ | .fwr _ => some 2
  | .contrib _ | .result _ => some 3
  | i => (msgOf i).map fun _ => 0

/-- The message that a command carries, with the opcode, the class and the operand bits that its row fixes (R45, R46, R189). -/
def asSent : Instr → Arrival
  | .rd a => asMsg a 0x01 0
  | .wr a => asMsg a 0x02 0
  | .atom a => asMsg a 0x04 0
  | .admission a => asMsg a 0x08 0
  | .release a => { asMsg a 0x08 0 with data := a.data.set 6 (0x30 ||| (a.data.getD 6 0 &&& 0x0F)) }
  | .fenceFull a => withW3 (asMsg a 0x0C 0) 3 0
  | .fenceRelease a => withW3 (asMsg a 0x0C 0) 3 1
  | .fenceAcquire a => withW3 (asMsg a 0x0C 0) 3 2
  | .tlyRead a => asTly a 0x00
  | .tlyAdd a => asTly a 0x01
  | .tlySub a => asTly a 0x02
  | .tlyFetchAdd a => asTly a 0x03
  | .tlyFetchSub a => asTly a 0x04
  | .tlyWaitGe a => asTly a 0x08
  | .tlyWaitEq a => asTly a 0x09
  | .tlyArrive a => asTly a 0x10
  | .tlyArriveWait a => asTly a 0x11
  | .tlyClaim a => asTly a 0x18
  | .tlySetlimit a => asTly a 0x19
  | .tlySettimeout a => asTly a 0x1A
  | .tlySet a => asTly a 0x1B
  | .tlyFree a => asTly a 0x1C
  | .tlyArm a => asTly a 0x1D
  | .tlyDisarm a => asTly a 0x1E
  | .ownerLost a => asMsg a 0x0E 0
  | .mgmtRead a => withW3 (asMsg a 0x0F 0) 0x1000000 0
  | .mgmtWrite a => withW3 (asMsg a 0x0F 0) 0x1000000 0x1000000
  | .contrib a => asMsg a 0x61 3
  | .push a => asMsg a 0x42 2
  | .fwr a => asMsg a 0x41 2
  | .fwack a => asMsg a 0x26 1
  | .pushack a => asMsg a 0x27 1
  | .result a => asMsg a 0x62 3
  | i => (msgOf i).getD { port := 0, hdr := {} }

/-- Nothing watches the traffic: no recording, no replay, no circulation counter, no tagging and no Jostle. -/
def State.unobserved (s : State) : Bool :=
  s.obj 0x2E00 1 != 1 && s.obj 0x2E00 0x0B != 2 && s.obj 0x2E00 0x0B != 3 && s.setCounters.isEmpty && s.test.jostleAt.isNone &&
  decide (s.obj 0x3690 1 < 8) && s.test.tagged.isEmpty

/-- A message on channel `vc` finds its port in service, room in its pool, no credit hold there, and a block that is neither stopped
nor pausing. -/
def State.takes (s : State) (a : Arrival) (vc : Nat) : Bool :=
  s.inService a.port && decide (flitsOf a.data ≤ (s.port a.port).free.getD (poolOf a vc) 0) && (s.port a.port).holds.isEmpty &&
  !s.stopped && !s.pausing

/-- No request is in flight, waits or is held. -/
def State.alone (s : State) : Bool := s.ops.isEmpty && s.waits.isEmpty

/-- An answer of `n` flits leaves port `p` at once: the twins' outputs agree, nothing of its class waits there, and the credits cover it
(R16, R40). -/
def State.canAnswer (s : State) (p n : Nat) : Bool :=
  !s.twins.disputed && !(s.port p).outq.any (fun m => m.hdr.mclass == 1) && decide (n ≤ (s.port p).credits.getD 1 0)

/-- Franking passes a message at once: its class is enabled and unmetered, and its gate is open (R250, R251, R254). -/
def State.franksNow (s : State) (a : Arrival) : Bool :=
  s.clsEnabled (clsOf a) && s.gateOpen (clsOf a) && s.unmetered (.cls (clsOf a)) && (s.conMeter a).isNone

/-- A request is at its turn: it carries no ORD, or nothing of its sequence is held and it is the next, or a SYNC, and no Tally wait of
its source holds it back (R52, R106). -/
def State.atTurn (s : State) (a : Arrival) : Bool :=
  !a.hdr.ord ||
  (let q := s.seqOf (seqKey a)
   q.held.isEmpty && q.turn.isEmpty && (a.hdr.sync || q.next == some a.hdr.seq) &&
   !s.tal.waiters.any fun w => w.msg.hdr.ord && seqKey w.msg == seqKey a)

/-- The credits that go back when a message leaves its pool: newest first, as the wire log keeps them (R41). -/
def returned (a : Arrival) (vc : Nat) : List Wire :=
  ((creditWords (poolOf a vc) (flitsOf a.data)).map fun c => Wire.credit a.port c).reverse

/-- A request on channel `vc` that the block runs at once, whose answer has `n` flits. -/
def State.runsNow (s : State) (a : Arrival) (n : Nat) (vc : Nat := 0) : Bool :=
  s.unobserved && s.takes a vc && s.alone && s.franksNow a && s.atTurn a && s.canAnswer a.port n && !malformed a &&
  (!a.hdr.csg || s.csgStatus a == stOk)

/-- Only the listed objects may differ. -/
def objsBut (s t : State) (l : List (Nat × Nat)) : Prop :=
  ∀ i sub, sub < 256 → (i, sub) ∉ l → t.obj i sub = s.obj i sub

/-- The sequences after a message that ran at its turn (R52): its own expects the next SEQ, with the message as the last that ran;
`answered` says that it was answered now. The others are as before. -/
def seqsAfter (s t : State) (a : Arrival) (answered : Bool) : Prop :=
  ∀ k, t.seqOf k = if a.hdr.ord = true ∧ k = seqKey a then
      { key := k, next := some (a.hdr.seq + 1), last := some s.nextId, idleAt := if answered then s.now else (s.seqOf k).idleAt }
    else s.seqOf k

/-- A message was taken on channel `vc` and its credits went back; nothing was answered, and no request is left (R41). -/
def Taken (s t : State) (a : Arrival) (vc : Nat) : Prop :=
  t.wire = returned a vc ++ s.wire ∧ t.ports = s.ports ∧ seqsAfter s t a false

/-- A port after an answer of `n` flits left it at an instant: their credits are deducted, and the port notes that what it had covered them
until then (R40, R56). -/
def PortSt.paid (q : PortSt) (now n : Nat) : PortSt := q.setCredits now 1 (q.credits.getD 1 0 - n)

/-- A message was taken on channel `vc`, run and answered at once: the answer left its port, its credits were deducted there, the
message's own went back, and no request is left (R20, R40, R41). -/
def Answered (s t : State) (a : Arrival) (vc : Nat) (h : Hdr) (data : List Byte) : Prop :=
  t.wire = returned a vc ++ Wire.msg a.port (hdrSeal h) data :: s.wire ∧
  (∀ p, p ≠ a.port → t.port p = s.port p) ∧
  t.port a.port = (s.port a.port).paid s.now (flitsOf data) ∧
  seqsAfter s t a true

/-- An answer left port `p` on RSP, and its credits were deducted there; nothing else went out (R20, R40). -/
def SentOn (s t : State) (p : Nat) (h : Hdr) (data : List Byte) : Prop :=
  t.wire = Wire.msg p (hdrSeal h) data :: s.wire ∧
  t.ports = (s.setPort p ((s.port p).paid t.now (flitsOf data))).ports

/-- The same, for a request that left its pool with it: its flits are free there, and their credits went back (R41). -/
def SentAndFreed (s t : State) (a : Arrival) (h : Hdr) (data : List Byte) : Prop :=
  let q := s.port a.port
  let i := poolOf a a.hdr.mclass.toNat
  t.wire = returned a a.hdr.mclass.toNat ++ Wire.msg a.port (hdrSeal h) data :: s.wire ∧
  t.ports = (s.setPort a.port { q.paid t.now (flitsOf data) with free := q.free.set i (q.free.getD i 0 + flitsOf a.data) }).ports

/-- The bytes that Franking lets pass green are counted for the class, and no other object changes but the listed ones (R274). -/
def charged (s t : State) (a : Arrival) (size : Nat) (l : List (Nat × Nat) := []) : Prop :=
  t.obj (0x2600 + clsOf a) 0x10 = s.obj (0x2600 + clsOf a) 0x10 + size ∧ objsBut s t ((0x2600 + clsOf a, 0x10) :: l)

/-! ### Memory as a client reads it -/

/-- The byte that a read of a hall offset gives: zero under a clear valid bit (R91, R288). -/
def State.byteAt (s : State) (off : Nat) : Byte := (s.seen (off / 32)).getD (off % 32) 0

/-- The valid bits of granules are in a cache of the message's island or of the Registry (R289). -/
def State.linesKnown (s : State) (a : Arrival) (gs : List Nat) : Bool :=
  gs.all fun g => s.shelf.isleCache.contains (a.port / 2, g / 128) || s.shelf.regCache.contains (g / 128 / 512)

/-- The granules of a message's span. -/
def spanGranules (a : Arrival) (n : Nat) : List Nat := (List.range n).map fun i => hallOffset a.hdr.addr.toNat / 32 + i

/-- A granule can be read in the same step: its block is clear, or the Carrel holds it and answers at once, within the limit in force (R32);
its bits are not lost. -/
def State.atHand (s : State) (a : Arrival) (g : Nat) : Bool :=
  !s.lostBlock (g / 128) &&
  (!s.validBit (g / 128) || (carrelHit s.mem g && a.quick && s.carrelMay (s.place (32 * g)).1 (clsOf a == 0)))

/-- Of the bays, only the Carrel lines counted in the governor's window differ, and the write-backs of lines that were evicted, which
stand below other requests no longer (R32, R237). -/
def CarrelServed (s t : State) : Prop :=
  ∀ b, t.bay b = { s.bay b with
    power := { (s.bay b).power with carrelUsed := (t.bay b).power.carrelUsed }
    sched := { (s.bay b).sched with queue := (t.bay b).sched.queue, pcs := (t.bay b).sched.pcs } }

/-- Everything that a write of these granules changes lies in one bay with room for it: the granules, and their blocks where these
are clear and must be filled (R102, R267, R291). -/
def State.oneBay (s : State) (a : Arrival) (gs : List Nat) (b n : Nat) : Bool :=
  s.spaceOk b (clsOf a) n && gs.all fun g =>
    (s.place (32 * g)).1 == b &&
    (s.validBit (g / 128) || (List.range 128).all fun i => (s.place (4096 * (g / 128) + 32 * i)).1 == b)

/-- The RDR of a read that met no error (R42, R46, R470). -/
def rdrOf (a : Arrival) : Hdr :=
  let h := { answerHdr a 0x21 stOk with addr := a.hdr.addr, len := a.hdr.len }
  if a.hdr.csg then { h with csg := true, cid := a.hdr.cid, cgen := a.hdr.cgen, w4 := a.hdr.w4 } else h

/-- What R75 looks at in a plain request. -/
def plainAccess (a : Arrival) (write : Bool) : Access75 :=
  { domain := a.hdr.domain.toNat, tclass := clsOf a, write := write }

/-! ### Tallies -/

/-- A TLY that runs at once on a Tally without waiters that is owned, by its sender's domain or shared (R188). -/
def State.tlyReady (s : State) (a : Arrival) : Bool :=
  s.runsNow a 1 && (s.tally a.tally).state == 1 &&
  ((s.tally a.tally).owner == 0xFF || (s.tally a.tally).owner == a.hdr.domain) && (s.tallyWaiters a.tally).isEmpty

/-- The waiter that a TLY becomes when it joins the list now: its deadline is WTIMEOUT away, or the default at 0x2800:06, in units of
100 µs (R194). -/
def State.waiterOf (s : State) (a : Arrival) (what : WaitFor) : Waiter :=
  { id := s.tal.nextWaiter, tally := a.tally, what := what, msg := a
    deadline := s.now + (if (s.tally a.tally).wtimeout = 0 then s.obj 0x2800 6 else (s.tally a.tally).wtimeout.toNat) * 100000 }

/-! ### Tiles -/

/-- In `t`, tile `i` of the consignment `c` of `s` is `z` and its outcome is `o`; its other tiles, the rest of its record and every
other consignment are as they were. -/
def TileNow (s t : State) (c : Con) (i : Nat) (z : Tile) (o : BitVec 4) : Prop :=
  ∃ d, t.con c.cid = some d ∧ d.tile? i = some z ∧ (∀ j, j ≠ i → d.tile? j = c.tile? j) ∧
    d = { c with tiles := d.tiles, outcome := o } ∧ ∀ k, k ≠ c.cid → t.con k = s.con k

/-- The bytes of a span that the block reads for itself. -/
def State.spanBytes (s : State) (addr len : Nat) : List Byte :=
  (List.range (len / 32)).flatMap fun i => s.seen (hallOffset addr / 32 + i)

/-- Every granule of a span can be read without its stack: its block is clear, or the Carrel holds it; its bits are not lost. -/
def State.spanAtHand (s : State) (addr len : Nat) : Bool :=
  (List.range (len / 32)).all fun i =>
    let g := hallOffset addr / 32 + i
    !s.lostBlock (g / 128) && (!s.validBit (g / 128) || carrelHit s.mem g)

/-! ### Reset and bring-up -/

/-- The block held in reset (R424, R471): everything at its reset value, block time 0 with it, but the block's size, the clock, what is
waiting, the wire log, the key slots, the pins and rails, the sensors' comparators, the straps and the test access port; `image` is what
remains of a pending firmware image. A lost bay rail is watched afresh once a reset that was not held ends (log 46). -/
def State.cleared (s : State) (image : Option (List Byte)) : State :=
  { State.reset with
    size := s.size, ports := List.replicate s.size.ports {}
    pending := s.pending, now := s.now, runStart := s.now, free := s.free, nextId := s.nextId, wire := s.wire, keys := s.keys
    boot := { brst := s.boot.brst, testen := s.boot.testen, vaux := s.boot.vaux, vddr := s.boot.vddr, railBad := if s.boot.held then s.boot.railBad else []
              refclk := s.boot.refclk, refLostAt := s.boot.refLostAt, pendingImage := image }
    bays := s.bays.map fun y => { therm := { comps := y.therm.comps.set 6 0 } }
    buses := { nodeId := s.buses.nodeId, rates := s.buses.rates, i3cStatic := s.buses.i3cStatic, lastBeat := s.now }
    test := { ir := s.test.ir, wrapper := s.test.wrapper, bayReg := s.test.bayReg, bypassBit := s.test.bypassBit
              wirInstr := s.test.wirInstr, pins := s.test.pins } }

/-- Bring-up begins at step 1, with an order challenge drawn (R304, R386). -/
def State.begun (s : State) : State :=
  { s with free := s.free + 1, health := { s.health with challenge := Config.freeValue s.free, at_ := s.now, sensedAt := s.now }
           boot := { s.boot with held := false, code := 1, step := 1, t0 := s.now, stepAt := s.now } }

/-- A bring-up step has ended and step `n` begins, shown as `code`. -/
def State.toStep (s : State) (n code : Nat) : State :=
  { s with boot := { s.boot with lastMs := (s.now - s.boot.t0) / 1000000, step := n, code := code, stepAt := s.now } }

/-- The block-level failure of the current step (R306, R338). -/
def State.failed (s : State) (reason : Nat) (where_ : Nat := 0) : State :=
  { s with boot := { s.boot with code := 0x30, failStep := s.boot.step, failReason := reason, failWhere := where_ } }

/-! ### Heat -/

/-- The therm inputs `x` let a live bay go on: no trip, no power-down, and the ladder band as it was (R346, R349, R350, R356). -/
def mildFor (y : Bay) (x : Thermal) : Bool :=
  y.therm.live && y.repair.state != 0 && y.therm.coolAt == 0 && x.tripCause == 0 && !x.at120 && x.anyBit 4 == y.therm.inLadder

/-- A live bay whose inputs are now `x` stands in the band that they set; a change of band is `setBand` (R229, R245, R346). -/
def State.inBand (s : State) (b : Nat) (x : Thermal) : State :=
  let t := s.modBay b fun y => { y with therm := x }
  if x.bandOf = x.thermal then t else t.setBand b x.bandOf

end Sys2Proof.Machine
end

