-- ==== Sys2Proof/Certificates/Slice0/Obligations.lean ====
section
/-! DEFINITION. The statements about the block that provers are asked to prove. -/

open Sys2Proof Sys2Proof.Machine

/-- A step runs the command at the front of the queue. For every state whose queue of waiting commands is c followed by rest, a
step is exec of c on the state with the queue rest. (The queue is the model's own frame for what arrives at the block.) -/
def Obligations.StepRunsFrontCommand : Prop :=
  ∀ (c : Instr) (rest : List Instr) (s : State), s.pending = c :: rest → step s = exec c { s with pending := rest }

/-- On an empty queue a step passes one Registry cycle and counts it, and changes nothing else. With no command waiting, a step
answers a next state whose clock is one Registry cycle later; besides the clock only circulation counters may differ, and with
no counter's control word set none does. What an empty queue does is the model's choice (log 2). -/
def Obligations.EmptyQueuePassesOneCycle : Prop :=
  ∀ s : State, s.pending = [] → ∃ t, step s = .next t ∧ t.now = s.now + 1 ∧
    t = { s with now := t.now, test := { s.test with ctrs := t.test.ctrs } } ∧
    (s.setCounters = [] → t.test.ctrs = s.test.ctrs)

/-- No command changes the queue of waiting commands. For every command and every state: where exec answers a next state, the
queue of waiting commands is as before. This holds of a block reset and of a release of BRST_N too, which put every other part
of the block to its reset values. -/
def Obligations.ExecLeavesQueue : Prop :=
  ∀ (c : Instr) (s t : State), exec c s = .next t → t.pending = s.pending

/-- Every step keeps memory and the Tallies in canonical form and the block's ports, bays and Daybook streams in number. For
every state in which the memory and the list of Tallies are in canonical form and the block has its 48 ports, 24 bays and 25
Daybook streams: if a step answers a next state, the same holds there. The canonical form is strictly rising addresses of stack
bytes with no byte at the value that unwritten memory reads as, and for Tallies strictly rising numbers (log 5 names the value
of an unwritten byte). -/
def Obligations.StepKeepsInvariant : Prop :=
  ∀ s t : State, s.Inv → step s = .next t → t.Inv

/-- The state after reset meets the invariant. At reset the memory and the Tallies list nothing and so are in canonical form,
and the block has 48 ports, 24 bays and 25 Daybook streams. -/
def Obligations.ResetMeetsInvariant : Prop :=
  State.reset.Inv

/-- After reset every object of the dictionary has its Default, no session is open and no port is in service. In the state after
reset every Catalogue object reads its Default, no session is open, no port is in service, no bay's repair record fences it, no
consignment, Tally or request is held, and the stack holds no marked granule. -/
def Obligations.ResetHasDefaultsAndNoService : Prop :=
  (∀ i sub, State.reset.obj i sub = Objects.dflt (Objects.key i sub)) ∧ State.reset.sessions = [] ∧
  (∀ p, State.reset.inService p = false) ∧ (∀ b, State.reset.fenced b = false) ∧ State.reset.cons = [] ∧
  State.reset.tal.tallies = [] ∧ State.reset.ops = [] ∧ State.reset.mem.marked = []

/-- A header flit and its fields carry the same bits both ways. Every header is what its eight words spell, and every eight
words are the words of the header they spell: no bit of the header flit of R42 is dropped or doubled. (It does not say that a
bit is read right; the words written out in the tests do.) -/
def Obligations.HeaderFlitRoundTrip : Prop :=
  (∀ (h : Hdr), ∃ w0 w1 w2 w3 w4 w5 w6 w7 : W64,
    hdrWords h = [w0, w1, w2, w3, w4, w5, w6, w7] ∧ hdrOfWords w0 w1 w2 w3 w4 w5 w6 w7 = h) ∧
  (∀ w0 w1 w2 w3 w4 w5 w6 w7 : W64,
    hdrWords (hdrOfWords w0 w1 w2 w3 w4 w5 w6 w7) = [w0, w1, w2, w3, w4, w5, w6, w7])

/-- No two bytes of a group share a bay, PC and PC-local address, and each lies in the group's frame. For a group layout with as
many PC masks of 64 bits as bays, its bays distinct, and a grain that divides 256 KiB, with or without the hash: the translation
of R72 gives two different offsets below the capacity n x 256 KiB different places, and the PC-local address lies in the frame
of 256 KiB that the layout names. -/
def Obligations.TranslationIsOneToOne : Prop :=
  ∀ (l : Layout) (u v : Nat), l.bays.Nodup → l.masks.length = l.bays.length → (∀ m ∈ l.masks, m < 2 ^ 64) →
    0 < l.grain → l.grain ∣ 262144 → u < l.cap → v < l.cap →
    (l.locate u = l.locate v → u = v) ∧
    l.frame * 262144 ≤ (l.locate u).2.2 ∧ (l.locate u).2.2 < (l.frame + 1) * 262144

/-- Every command completes; the only stop is a message for which its sender can hold no credits. Each of the 197 commands
completes: in every state in which the message that it carries, if it carries one, to a port in service finds room for its flits
in the port's pool of its channel, exec answers a next state; a command that carries no message does so in every state. (What
that state holds, the other statements say row by row.) For every command and state exec answers a next state, or it faults and
then the command carries a message to a port in service that has more flits than the port's pool of its class has free, which
R40 forbids the sender. The stop itself is the model's reading (log 10). For every row that carries a message: at a port in
service with fewer free flits in the pool of its channel than the message has, the command faults with portPoolOverrun (the
model's reading, log 10: R40 forbids the sender to send it); at a port that is not in service the command leaves the state as it
is. -/
def Obligations.OnlyPoolOverrunStops : Prop :=
  (∀ (c : Instr) (s : State),
    (∃ t, exec c s = .next t) ∨
    (∃ (a : Arrival) (vc : Nat), msgOf c = some a ∧ vc < 4 ∧ exec c s = .fault (.portPoolOverrun a.port) ∧
      s.inService a.port = true ∧ (s.port a.port).free.getD (poolOf a vc) 0 < flitsOf a.data)) ∧
  (∀ (c : Instr) (s : State),
    (∀ (a : Arrival) (vc : Nat), msgOf c = some a → channelOf c = some vc → s.inService a.port = true →
      flitsOf a.data ≤ (s.port a.port).free.getD (poolOf a vc) 0) →
    ∃ t, exec c s = .next t) ∧
  (∀ (i : Instr) (a : Arrival) (vc : Nat) (s : State), msgOf i = some a → channelOf i = some vc →
    (s.inService a.port = true → (s.port a.port).free.getD (poolOf a vc) 0 < flitsOf a.data →
      exec i s = .fault (.portPoolOverrun a.port)) ∧
    (s.inService a.port = false → exec i s = .next s))

/-- RD: a read whose granules are at hand answers an RDR with the bytes of its span. An RD that its port can take and the block
runs at once, aligned, allowed by the checks of R75, with its valid bits in a cache and every granule under a clear valid bit or
in the Carrel, answers in the same command: an RDR with status OK, the request's ADDR, LEN, TAG, SRCID, TCLASS and DOMAIN (with
CSG = 1 its CID, CGEN and TILE too) and the LEN + 1 granules as memory holds them, zero where the valid bit is clear. Its
credits go back, the class's green bytes grow by the span, every byte of memory reads as before, and nothing else changes but
the request counter, the caches with their counts and the class's latency and guarantee records. -/
def Obligations.ReadReturnsStoredBytes : Prop :=
  ∀ (a : Arrival) (s : State),
    let m := asMsg a 0x01 0
    let gs := spanGranules m m.granules
    s.runsNow m (1 + ceilDiv (32 * m.granules) 64) = true → misaligned m = false → s.shelf.commit = none →
    s.check75 m.hdr.addr.toNat (32 * m.granules) (plainAccess m false) = stOk → s.linesKnown m gs = true →
    (∀ g ∈ gs, s.atHand m g = true) →
    ∃ t, exec (.rd a) s = .next t ∧
      Answered s t m 0 (rdrOf m) (padTo (ceilDiv (32 * m.granules) 64 * 64) (gs.flatMap fun g => padTo 32 (s.seen g))) ∧
      charged s t m m.span ∧ (∀ off, t.byteAt off = s.byteAt off) ∧ CarrelServed s t ∧
      t = { s with wire := t.wire, ports := t.ports, seqs := t.seqs, objs := t.objs, nextId := t.nextId, mem := t.mem, bays := t.bays
                   shelf := { s.shelf with isleCache := t.shelf.isleCache }
                   frank := { s.frank with lat := t.frank.lat, latSum := t.frank.latSum, gbucket := t.frank.gbucket } }

/-- WR: the enabled bytes of the span are stored, every other byte reads as before, and the CMP follows. A WR that its port can
take and the block runs at once, aligned, allowed by the checks of R75, on a group that is not mirrored, with its valid bits in
a cache, all it changes in one bay with room, and every partly enabled granule at hand: under a clear valid bit, or in a Carrel
that answers at once: it answers CMP OK in the same command. A hall byte reads afterwards as the message's data where it lies in
the span and its byte enable is set (the first granule's FIRST_BE, the last one's LAST_BE where there are several, all ones
between), and as before everywhere else. The blocks written to are valid afterwards, and no other valid bit changes. -/
def Obligations.WriteStoresEnabledBytes : Prop :=
  ∀ (a : Arrival) (s : State) (b : Nat),
    let m := asMsg a 0x02 0
    let g0 := hallOffset m.hdr.addr.toNat / 32
    let gs := ((List.range m.granules).filter fun i => byteEnables m i != 0).map fun i => g0 + i
    s.runsNow m 1 = true → misaligned m = false → s.shelf.commit = none →
    s.check75 m.hdr.addr.toNat (32 * m.granules) (plainAccess m true) = stOk →
    (s.entry (g0 / 2 ^ 19)).mirror = false → s.linesKnown m gs = true → s.oneBay m gs b (32 * m.granules) = true →
    (∀ i < m.granules, byteEnables m i ≠ 0 → byteEnables m i ≠ 0xFFFFFFFF → s.atHand m (g0 + i) = true) →
    ∃ t, exec (.wr a) s = .next t ∧ Answered s t m 0 (answerHdr m 0x22 stOk) [] ∧ charged s t m m.span ∧
      (∀ off, t.byteAt off =
        if 32 * g0 ≤ off ∧ off < 32 * (g0 + m.granules) ∧ bit (byteEnables m (off / 32 - g0)) (off % 32) = true
        then m.payload.getD (off - 32 * g0) 0 else s.byteAt off) ∧
      (∀ k, t.validBit k = (s.validBit k || gs.any fun g => g / 128 == k)) ∧ CarrelServed s t ∧
      t = { s with wire := t.wire, ports := t.ports, seqs := t.seqs, objs := t.objs, nextId := t.nextId, mem := t.mem
                   free := t.free, bays := t.bays
                   shelf := { s.shelf with isleCache := t.shelf.isleCache, valid := t.shelf.valid }
                   frank := { s.frank with lat := t.frank.lat, latSum := t.frank.latSum, gbucket := t.frank.gbucket } }

/-- ATOM: the old operand is returned and the result stored, and no other byte changes. An ATOM with one of the operations 0 to
6 that its port can take and the block runs at once, aligned to its 4 or 8 bytes, without CSG, allowed by R75, on a group that
is not mirrored, its granule at hand and all it changes in one bay with room: it answers ATOMR OK with OLD the operand before
it. Afterwards the operand's bytes hold the result (add, swap, compare-swap, signed min and max, unsigned min and max), or are
unchanged where a compare-swap fails, and every other byte reads as before. -/
def Obligations.AtomReturnsOldAndWritesResult : Prop :=
  ∀ (a : Arrival) (s : State) (b : Nat),
    let m := asMsg a 0x04 0
    let addr := hallOffset m.hdr.addr.toNat
    let n := atomBytes m
    let old := ofBytes ((List.range n).map fun i => s.byteAt (addr + i))
    s.runsNow m 1 = true → m.hdr.csg = false → misaligned m = false → s.shelf.commit = none →
    s.check75 m.hdr.addr.toNat n (plainAccess m true) = stOk → (s.entry (addr / 32 / 2 ^ 19)).mirror = false →
    s.linesKnown m [addr / 32] = true → s.atHand m (addr / 32) = true → s.oneBay m [addr / 32] b 32 = true →
    ∃ t, exec (.atom a) s = .next t ∧
      Answered s t m 0 { answerHdr m 0x23 stOk with w4 := BitVec.ofNat 64 old } [] ∧ charged s t m 64 ∧
      (∀ off, t.byteAt off = match atomResult m.aop (8 * n) old m.hdr.w4.toNat m.hdr.w5.toNat with
        | some v => if addr ≤ off ∧ off < addr + n then (toBytes n v).getD (off - addr) 0 else s.byteAt off
        | none => s.byteAt off) ∧ CarrelServed s t ∧
      t = { s with wire := t.wire, ports := t.ports, seqs := t.seqs, objs := t.objs, nextId := t.nextId, mem := t.mem
                   free := t.free, bays := t.bays
                   shelf := { s.shelf with isleCache := t.shelf.isleCache, valid := t.shelf.valid }
                   frank := { s.frank with lat := t.frank.lat, latSum := t.frank.latSum, gbucket := t.frank.gbucket } }

/-- TLY ADD, SUB, FETCH_ADD, FETCH_SUB: exact in STRICT, modulo 2^32 in WRAP, refused at the bounds. On a Tally of use counter
or completion that is owned by the request's domain or shared and has no waiters, an ADD or SUB (or its fetching form) that runs
at once changes VALUE by TARG, modulo 2^32, and is answered OK; the fetching forms answer an ATOMR whose OLD is VALUE before,
zero-extended. In STRICT mode an ADD past LIMIT is answered OVERFLOW and a SUB below 0 UNDERFLOW: no Tally changes, one entry
goes to the event log and the refusals at 0x2800:0A grow by 1. No waiter and no other Tally changes. -/
def Obligations.TallyArithmeticFollowsMode : Prop :=
  ∀ (a : Arrival) (s : State) (i : Instr) (top : Nat),
    (i, top) ∈ [(Instr.tlyAdd a, 1), (.tlySub a, 2), (.tlyFetchAdd a, 3), (.tlyFetchSub a, 4)] →
    let m := asTly a (BitVec.ofNat 64 top)
    let t0 := s.tally m.tally
    let sub := top = 2 ∨ top = 4
    let fetch := top = 3 ∨ top = 4
    let reply := fun (st : BitVec 4) =>
      if fetch then { answerHdr m 0x23 st with w4 := BitVec.ofNat 64 t0.value.toNat } else answerHdr m 0x22 st
    s.tlyReady m = true → t0.use_ = 0 ∨ t0.use_ = 2 →
    (¬ (t0.wrap = false ∧ (if sub then t0.value < m.targ else t0.limit.toNat < t0.value.toNat + m.targ.toNat)) →
      ∃ t, exec i s = .next t ∧ Answered s t m 0 (reply stOk) [] ∧ charged s t m 64 ∧
        (∀ k, t.tally k = if k = m.tally then { t0 with value := if sub then t0.value - m.targ else t0.value + m.targ }
          else s.tally k) ∧
        t = { s with wire := t.wire, ports := t.ports, seqs := t.seqs, objs := t.objs, nextId := t.nextId
                     tal := { s.tal with tallies := t.tal.tallies } }) ∧
    (t0.wrap = false → (if sub then t0.value < m.targ else t0.limit.toNat < t0.value.toNat + m.targ.toNat) →
      ∃ t, exec i s = .next t ∧ Answered s t m 0 (reply (if sub then stUnderflow else stOverflow)) [] ∧
        charged s t m 64 [(0x2800, 0x0A), (0x2801, 1)] ∧ t.obj 0x2800 0x0A = s.obj 0x2800 0x0A + 1 ∧
        t.obj 0x2801 1 = s.obj 0x2801 1 + 1 ∧
        t = { s with wire := t.wire, ports := t.ports, seqs := t.seqs, objs := t.objs, nextId := t.nextId
                     tal := { s.tal with
                       log := ({ lvalue := t0.value, kind := if sub then 0 else 1, ltop := top, lport := m.port,
                                 ltally := m.tally, lsrcid := m.hdr.srcid, ltime := s.now } :: s.tal.log).take 256 } })

/-- TLY READ, WAIT_GE, WAIT_EQ: T0 is returned; a satisfied wait is answered at once, another joins the list. A READ, from any
domain and of a Tally in any state, answers an ATOMR whose OLD is the word T0 and changes no Tally. A WAIT_GE or WAIT_EQ on a
Tally of use counter or completion that is satisfied (unsigned in STRICT, modular in WRAP) is answered at once, with OUTCOME on
a completion Tally and OK else; one that is not satisfied is not answered and joins the waiters with its deadline, now plus
WTIMEOUT or the default at 0x2800:06 in units of 100 us; where 65,536 slots are taken it is answered RETRY. VALUE never changes.
-/
def Obligations.TallyReadAndWaits : Prop :=
  (∀ (a : Arrival) (s : State),
    let m := asTly a 0
    s.runsNow m 1 = true → m.targ = 0 →
    ∃ t, exec (.tlyRead a) s = .next t ∧
      Answered s t m 0 { answerHdr m 0x23 stOk with w4 := (s.tallyWords m.tally).headD 0 } [] ∧ charged s t m 64 ∧
      t = { s with wire := t.wire, ports := t.ports, seqs := t.seqs, objs := t.objs, nextId := t.nextId }) ∧
  (∀ (a : Arrival) (s : State) (i : Instr) (top : Nat), (i, top) ∈ [(Instr.tlyWaitGe a, 8), (.tlyWaitEq a, 9)] →
    let m := asTly a (BitVec.ofNat 64 top)
    let t0 := s.tally m.tally
    let sat := if top = 9 then t0.value = m.targ else if t0.wrap then (t0.value - m.targ).toNat < 2 ^ 31 else m.targ ≤ t0.value
    s.runsNow m 1 = true → t0.state = 1 → t0.owner = 0xFF ∨ t0.owner = m.hdr.domain → t0.use_ = 0 ∨ t0.use_ = 2 →
    (sat ∨ 65536 ≤ s.waiterSlots →
      ∃ t, exec i s = .next t ∧
        Answered s t m 0 (answerHdr m 0x22 (if ¬ sat then stRetry else if t0.use_ = 2 then t0.outcome else stOk)) [] ∧
        charged s t m 64 [(0x2050, 5), (0x2C00, 6)] ∧
        t = { s with wire := t.wire, ports := t.ports, seqs := t.seqs, objs := t.objs, nextId := t.nextId }) ∧
    (¬ sat → s.waiterSlots < 65536 →
      ∃ t, exec i s = .next t ∧ Taken s t m 0 ∧ charged s t m 64 ∧
        t = { s with wire := t.wire, seqs := t.seqs, objs := t.objs, nextId := t.nextId
                     tal := { s.tal with
                       waiters := s.tal.waiters ++ [s.waiterOf m (if top = 8 then .ge m.targ else .eq m.targ)],
                       nextWaiter := s.tal.nextWaiter + 1 } }))

/-- TLY ARRIVE and ARRIVE_WAIT: counted by generation, answered or waiting. On a barrier Tally that the request's domain may use
and that has no waiters, with d the tag less GEN modulo 4: d = 0, not releasing and at least two arrivals short of LIMIT: VALUE
grows by 1. d = 1 with SHADOW below LIMIT: SHADOW grows by 1. A counted ARRIVE is answered OK at once; a counted ARRIVE_WAIT is
not answered and joins the waiters, for the current or the next generation. d = 2 is answered RETRY and d = 3 DENIED, and then
no Tally changes. -/
def Obligations.BarrierArrivals : Prop :=
  ∀ (a : Arrival) (s : State) (i : Instr) (top : Nat), (i, top) ∈ [(Instr.tlyArrive a, 0x10), (.tlyArriveWait a, 0x11)] →
    let m := asTly a (BitVec.ofNat 64 top)
    let t0 := s.tally m.tally
    let d := (m.targ.extractLsb' 0 2 - t0.gen).toNat
    s.tlyReady m = true → t0.use_ = 1 → m.targ >>> 2 = 0 → t0.releasing = false → t0.value ≠ t0.limit → s.waiterSlots < 65536 →
    ((d = 0 ∧ t0.value + 1 ≠ t0.limit) ∨ (d = 1 ∧ t0.shadow < t0.limit) →
      ∃ t, exec i s = .next t ∧ charged s t m 64 ∧
        (∀ k, t.tally k = if k = m.tally then
          (if d = 0 then { t0 with value := t0.value + 1 } else { t0 with shadow := t0.shadow + 1 }) else s.tally k) ∧
        (top = 0x10 → Answered s t m 0 (answerHdr m 0x22 stOk) [] ∧
          t = { s with wire := t.wire, ports := t.ports, seqs := t.seqs, objs := t.objs, nextId := t.nextId
                       tal := { s.tal with tallies := t.tal.tallies } }) ∧
        (top = 0x11 → Taken s t m 0 ∧
          t = { s with wire := t.wire, seqs := t.seqs, objs := t.objs, nextId := t.nextId
                       tal := { s.tal with tallies := t.tal.tallies, nextWaiter := s.tal.nextWaiter + 1,
                                           waiters := s.tal.waiters ++ [s.waiterOf m (.gen (d == 1))] } })) ∧
    (d = 2 ∨ d = 3 →
      ∃ t, exec i s = .next t ∧ Answered s t m 0 (answerHdr m 0x22 (if d = 2 then stRetry else stDenied)) [] ∧
        charged s t m 64 ∧
        t = { s with wire := t.wire, ports := t.ports, seqs := t.seqs, objs := t.objs, nextId := t.nextId })

/-- TLY CLAIM, SETLIMIT, SETTIMEOUT, SET, FREE, ARM, DISARM complete: the answer, and the Tally afterwards. For the owner of a
Tally without waiters (a CLAIM may also find it free or orphaned), each of these runs at once, is answered OK and leaves the
Tally as its rule says: CLAIM gives OWNER, OPORT, MODE, USE and PBIND and resets the rest but BOUND (the owner's own re-claim
needs BOUND clear); SETLIMIT sets LIMIT (on a barrier, not zero, with VALUE, SHADOW and RELEASING clear); SETTIMEOUT sets
WTIMEOUT; SET sets VALUE, within LIMIT in STRICT, and returns OUTCOME to OK; FREE, with BOUND clear, returns it to its reset
state; ARM, with network time locked and a target 1 us to 2^39 ns ahead, sets ARMED and ARMTIME; DISARM clears ARMED. One that
breaks such a condition, or names operand bits that its row leaves reserved, is answered DENIED (OWNERLOST on an orphaned Tally,
but for a CLAIM) and changes no Tally. No other Tally, no waiter and no log entry changes. -/
def Obligations.TallyOwnerOperations : Prop :=
  ∀ (a : Arrival) (s : State) (i : Instr) (top : Nat),
    (i, top) ∈ [(Instr.tlyClaim a, 0x18), (.tlySetlimit a, 0x19), (.tlySettimeout a, 0x1A), (.tlySet a, 0x1B), (.tlyFree a, 0x1C),
      (.tlyArm a, 0x1D), (.tlyDisarm a, 0x1E)] →
    let m := asTly a (BitVec.ofNat 64 top)
    let t0 := s.tally m.tally
    let d := (s.armTarget m.targ).2
    let own := t0.state = 1 ∧ t0.owner = m.hdr.domain
    let plain := t0.use_ = 0 ∨ t0.use_ = 2
    let may :=
      if top = 0x18 then (t0.state = 0 ∨ t0.state = 2 ∨ (own ∧ t0.bound = false)) ∧ m.targ >>> 4 = 0 ∧ m.targ.extractLsb' 1 2 ≠ 3
      else if top = 0x19 then own ∧ (t0.use_ = 1 → t0.value = 0 ∧ t0.shadow = 0 ∧ t0.releasing = false ∧ m.targ ≠ 0)
      else if top = 0x1A then own ∧ m.targ >>> 16 = 0 ∧ (t0.use_ = 1 → t0.releasing = false ∧ t0.value ≠ t0.limit)
      else if top = 0x1B then own ∧ plain ∧ (t0.wrap = true ∨ m.targ ≤ t0.limit)
      else if top = 0x1C then own ∧ t0.bound = false ∧ m.targ = 0
      else if top = 0x1D then own ∧ plain ∧ t0.armed = false ∧ s.tod.state = 1 ∧ 1000 ≤ d ∧ d ≤ 2 ^ 39
      else own ∧ plain ∧ m.targ = 0
    let t1 : Tally :=
      if top = 0x18 then
        { owner := m.hdr.domain, oport := BitVec.ofNat 6 m.port, pbind := m.targ.getLsbD 3, state := 1, wrap := m.targ.getLsbD 0
          use_ := m.targ.extractLsb' 1 2, bound := t0.bound }
      else if top = 0x19 then { t0 with limit := m.targ }
      else if top = 0x1A then { t0 with wtimeout := m.targ.extractLsb' 0 16 }
      else if top = 0x1B then { t0 with value := m.targ, outcome := 0 }
      else if top = 0x1C then {}
      else if top = 0x1D then { t0 with armed := true, armtime := m.targ, armAt := some (s.armTarget m.targ).1 }
      else { t0 with armed := false, armAt := none, late := false }
    let bad := targBad top m.targ = true
    let mine := own ∧ m.hdr.domain ≠ 0xFF
    let refused :=
      if top = 0x18 then bad ∨ m.hdr.domain = 0xFF ∨ ¬ (t0.state = 0 ∨ t0.state = 2 ∨ (own ∧ t0.bound = false))
      else bad ∨ ¬ mine ∨ (top ∈ [0x1B, 0x1D, 0x1E] ∧ ¬ plain) ∨
        (top = 0x19 ∧ t0.use_ = 1 ∧ (t0.value ≠ 0 ∨ t0.shadow ≠ 0 ∨ t0.releasing = true ∨ m.targ = 0)) ∨
        (top = 0x1B ∧ t0.wrap = false ∧ t0.limit < m.targ) ∨ (top = 0x1C ∧ t0.bound = true) ∨
        (top = 0x1D ∧ (t0.armed = true ∨ s.tod.state ≠ 1 ∨ d < 1000 ∨ 2 ^ 39 < d))
    s.runsNow m 1 = true → (s.tallyWaiters m.tally).isEmpty = true → (∀ w ∈ s.tal.waiters, w.tally ≠ m.tally) →
    (m.hdr.domain ≠ 0xFF → may →
      ∃ t, exec i s = .next t ∧ Answered s t m 0 (answerHdr m 0x22 stOk) [] ∧ charged s t m 64 ∧
        (∀ k, t.tally k = if k = m.tally then t1 else s.tally k) ∧
        t = { s with wire := t.wire, ports := t.ports, seqs := t.seqs, objs := t.objs, nextId := t.nextId
                     tal := { s.tal with tallies := t.tal.tallies } }) ∧
    (refused →
      let st := if top ≠ 0x18 ∧ ¬ bad ∧ t0.state = 2 then stOwnerlost else stDenied
      ∃ t, exec i s = .next t ∧ Answered s t m 0 (answerHdr m 0x22 st) [] ∧ charged s t m 64 ∧
        t = { s with wire := t.wire, ports := t.ports, seqs := t.seqs, objs := t.objs, nextId := t.nextId })

/-- OWNER_LOST: every Tally of the lost domain is orphaned and disarmed, no other changes, and CMP OK answers. An OWNER_LOST on
a port that accepts such notices, of an enabled class and taken at its turn, where no waiter waits on a Tally of the lost
domain: each owned Tally whose OWNER is LOSTDOM becomes orphaned with ARMED clear and keeps VALUE, SHADOW, GEN, LIMIT and
OUTCOME; every other Tally, and with LOSTDOM 0xFF every Tally, is as before. One entry of kind 4 goes to the event log with the
number of Tallies orphaned, and the notice is answered CMP OK. (The premise Inv is the invariant that StepKeepsInvariant
states.) -/
def Obligations.OwnerLossOrphansTallies : Prop :=
  ∀ (a : Arrival) (s : State),
    let m := asMsg a 0x0E 0
    let lost := fun (t : Tally) => t.state = 1 ∧ t.owner ≠ 0xFF ∧ t.owner = m.lostdom
    let n := (s.tal.tallies.filter fun e => decide (lost e.2)).length
    s.unobserved = true → s.takes m 0 = true → s.alone = true → s.atTurn m = true → s.canAnswer m.port 1 = true →
    malformed m = false → s.clsEnabled (clsOf m) = true → (m.hdr.csg = true → s.csgStatus m = stOk) →
    bit (s.portCfg m.port) 1 = true → s.Inv →
    (∀ w ∈ s.tal.waiters, ¬ lost (s.tally w.tally)) →
    ∃ t, exec (.ownerLost a) s = .next t ∧ Answered s t m 0 (answerHdr m 0x22 stOk) [] ∧
      (∀ k, t.tally k = if lost (s.tally k) then { s.tally k with state := 2, armed := false, armAt := none, late := false }
        else s.tally k) ∧
      t.obj 0x2801 1 = s.obj 0x2801 1 + 1 ∧ objsBut s t [(0x2801, 1)] ∧
      t = { s with wire := t.wire, ports := t.ports, seqs := t.seqs, objs := t.objs, nextId := t.nextId
                   tal := { s.tal with
                     tallies := t.tal.tallies,
                     log := ({ lvalue := BitVec.ofNat 32 n, kind := 4, ltop := 0, lport := m.port, ltally := 0,
                               lsrcid := 0#12 ++ m.lostdom, ltime := s.now } :: s.tal.log).take 256 } }

/-- FENCE: answered at once where it covers nothing, else held until what it covers is over. A full, release or acquire FENCE
with nothing in flight runs at once and is answered CMP OK, and changes nothing else. Without ORD, where requests of its source
in flight before it are of a kind that it waits for (reads and atomics and writes for a full fence, writes and atomics for a
release, reads and atomics not yet performed for an acquire), it is not answered: it waits for exactly those. -/
def Obligations.FencesCompleteOrWait : Prop :=
  ∀ (a : Arrival) (s : State) (i : Instr) (k : Nat),
    (i, k) ∈ [(Instr.fenceFull a, 0), (.fenceRelease a, 1), (.fenceAcquire a, 2)] →
    let m := withW3 (asMsg a 0x0C 0) 3 (BitVec.ofNat 64 k)
    (s.runsNow m 1 = true →
      ∃ t, exec i s = .next t ∧ Answered s t m 0 (answerHdr m 0x22 stOk) [] ∧ charged s t m 64 ∧
        t = { s with wire := t.wire, ports := t.ports, seqs := t.seqs, objs := t.objs, nextId := t.nextId }) ∧
    (let l := s.ops.filter fun o => o.msg.hdr.srcid == m.hdr.srcid && o.msg.hdr.opcode != 0 &&
        (o.kind == .atom || (o.kind == .rd && k != 1) || (o.kind == .wr && k != 2)) && !(k == 2 && o.stage == .mirror)
     s.unobserved = true → s.takes m 0 = true → s.franksNow m = true → m.hdr.ord = false → m.hdr.csg = false →
     malformed m = false → s.seqs = [] → s.waits = [] → (∀ o ∈ s.ops, o.id < s.nextId) → l ≠ [] →
      ∃ t, exec i s = .next t ∧ Taken s t m 0 ∧ charged s t m 64 ∧
        t = { s with wire := t.wire, objs := t.objs, nextId := t.nextId
                     waits := [{ kind := .fence k, msg := m, covers := l.map (·.id) }] })

/-- ADMIT: the lowest free CID is taken under its next CGEN, active at once or waiting for its bays. An ADMIT that runs at once,
whose slip parses and passes the checks of steps 1 to 4 of R60, with cid the lowest free CID, creates the consignment under the
CGEN after its last one. With no bay to reserve in and no Tally named, it is active and the CMP OK carries CID and CGEN. With
bays to reserve in it is not answered: it stands as admitting and waits for those bays. No other consignment changes. -/
def Obligations.AdmitOpensConsignment : Prop :=
  ∀ (a : Arrival) (s : State) (p : Slip) (cid : Nat),
    let m := asMsg a 0x08 0
    let old := ((s.past.find? fun x => x.cid == cid).map (·.cgen)).getD 0
    s.runsNow m 1 = true → m.hdr.csg = false → parseSlip m = some p → p.kind ≠ 3 → p.ctally = none → p.ttally = none →
    p.postmark = none → s.slipRefused m p = false → s.classRefuses m p = false → s.slipStatus m p = stOk → cid < 4096 →
    s.con cid = none → (∀ k < cid, (s.con k).isSome = true) →
    ∃ t c, exec (.admission a) s = .next t ∧ charged s t m 64 ∧ t.con cid = some c ∧ (∀ k, k ≠ cid → t.con k = s.con k) ∧
      c.cgen = old + 1 ∧ c.msg = m ∧ c.slip = p ∧ c.bytes = m.payload ∧ c.outcome = stOk ∧ c.tiles = [] ∧ c.await = s.resBays c ∧
      (s.resBays c = [] → c.state = .active ∧
        Answered s t m 0 { answerHdr m 0x22 stOk with cid := BitVec.ofNat 12 cid, cgen := c.cgen } [] ∧
        t = { s with wire := t.wire, ports := t.ports, seqs := t.seqs, objs := t.objs, nextId := t.nextId, cons := t.cons
                     day := { s.day with admissions := s.day.admissions + 1 } }) ∧
      (s.resBays c ≠ [] → c.state = .admitting ∧ Taken s t m 0 ∧
        t = { s with wire := t.wire, seqs := t.seqs, objs := t.objs, nextId := t.nextId, cons := t.cons })

/-- RELEASE: an idle KIND 0 consignment is freed, its outcome answered and kept for the query. A RELEASE that runs at once and
names an active KIND 0 consignment under its CGEN and DOMAIN, with nothing of it in flight and no Tally bound: the CID is free
afterwards, the CMP carries the consignment's outcome, and the record of the past CID keeps CGEN and outcome. Under another
CGEN, or another DOMAIN, or for a CID that is not active, it is answered DENIED and no consignment changes. -/
def Obligations.ReleaseEndsConsignment : Prop :=
  ∀ (a : Arrival) (s : State) (p : Slip),
    let m : Arrival := { asMsg a 0x08 0 with data := a.data.set 6 (0x30 ||| (a.data.getD 6 0 &&& 0x0F)) }
    s.runsNow m 1 = true → m.hdr.csg = false → parseSlip m = some p → p.kind = 3 →
    (∀ c, s.con p.rcid = some c → c.state = .active → c.cgen = p.rcgen → c.msg.hdr.domain = m.hdr.domain →
      c.slip.kind = 0 → c.slip.ctally = none → c.slip.ttally = none → c.tiles = [] → c.outcome ≠ stFenced → c.outcome ≠ stUncorr →
      (∀ x ∈ s.cons, x.cid = c.cid → x = c) →
      ∃ t, exec (.release a) s = .next t ∧ Answered s t m 0 (answerHdr m 0x22 c.outcome) [] ∧ charged s t m 64 ∧
        t.con p.rcid = none ∧ (∀ k, k ≠ p.rcid → t.con k = s.con k) ∧
        (t.past.find? fun x => x.cid == p.rcid) =
          some { cid := p.rcid, cgen := c.cgen, outcome := c.outcome, kind := 0, done := c.closed.length } ∧
        t = { s with wire := t.wire, ports := t.ports, seqs := t.seqs, objs := t.objs, nextId := t.nextId, cons := t.cons
                     past := t.past, frank := { s.frank with meters := t.frank.meters, leases := t.frank.leases } }) ∧
    ((∀ c, s.con p.rcid = some c → c.state ≠ .active ∨ c.cgen ≠ p.rcgen ∨ c.msg.hdr.domain ≠ m.hdr.domain) →
      ∃ t, exec (.release a) s = .next t ∧ Answered s t m 0 (answerHdr m 0x22 stDenied) [] ∧ charged s t m 64 ∧
        t = { s with wire := t.wire, ports := t.ports, seqs := t.seqs, objs := t.objs, nextId := t.nextId })

/-- CONTRIB, PUSH, RESULT: an accepted contribution counts once and is staged; a RESULT changes nothing. A CONTRIB or PUSH that
its checks accept, for an open tile two or more short of its count, that runs at once without replay: the tile's count grows by
1 and its data join the staged ones in acceptance order, or with LAST or a full batch all staged ones become a batch. A PUSH
answers PUSHACK OK and carries its SHORT, UNCORR, SATURATED and INVALID flags into the tile; a CONTRIB answers CMP OK with
ACKREQ and nothing without. No other tile or consignment changes. A RESULT that arrives is discarded. -/
def Obligations.ContributionsAreCounted : Prop :=
  (∀ (a : Arrival) (s : State) (push : Bool) (c : Con) (k : Tile),
    let i := if push then Instr.push a else .contrib a
    let m := if push then asMsg a 0x42 2 else asMsg a 0x61 3
    let vc := if push then 2 else 3
    let o := offerOf m
    s.runsNow m 1 vc = true → m.hdr.ord = false → s.contribStatus m = stOk → s.con m.hdr.cid.toNat = some c →
    c.tile? m.tile = some k → k.count + 1 < c.slip.count → c.slip.postmark = none →
    ∃ t, exec i s = .next t ∧
      (∀ n, t.con n = if n = m.hdr.cid.toNat then
          some { c with tiles := c.tiles.map fun u => if u.idx = m.tile then
            { u with
              count := k.count + 1, short := u.short || o.stg.short, flags := u.flags ||| o.flags, hashSum := 0,
              stagedAt := if u.staged.isEmpty then s.now else u.stagedAt,
              staged := if o.last || s.obj 0x2070 2 ≤ k.staged.length + 1 then [] else u.staged ++ [o.stg],
              batches := if o.last || s.obj 0x2070 2 ≤ k.staged.length + 1 then u.batches ++ [u.staged ++ [o.stg]]
                else u.batches }
            else u }
        else s.con n) ∧
      (push = true → Answered s t m 2 (answerHdr m 0x27 stOk) [] ∧ objsBut s t []) ∧
      (push = false → charged s t m m.span ∧ (if m.ackreq then Answered s t m 3 (answerHdr m 0x22 stOk) [] else Taken s t m 3)) ∧
      t = { s with wire := t.wire, ports := t.ports, objs := t.objs, nextId := t.nextId, cons := t.cons }) ∧
  (∀ (a : Arrival) (s : State),
    let m := asMsg a 0x62 3
    s.unobserved = true → s.takes m 3 = true → s.alone = true →
    ∃ t, exec (.result a) s = .next t ∧ t = { s with wire := returned m 3 ++ s.wire, nextId := t.nextId })

/-- FWR: a partner's copy is stored whatever OWNER, RO and PKTBUF say, and answered FWACK OK. An FWR taken at its turn with
nothing in flight, well formed and aligned, that the checks of R75 without those of OWNER, RO and PKTBUF let through, with its
valid bits in a cache and all it changes in one bay with room: it answers FWACK OK in the same command. Every byte of its span
reads afterwards as its data, and every other byte as before; no further copy is sent. -/
def Obligations.MirrorWriteIsPerformedAndAnswered : Prop :=
  ∀ (a : Arrival) (s : State) (b : Nat),
    let m := asMsg a 0x41 2
    let g0 := hallOffset m.hdr.addr.toNat / 32
    let gs := spanGranules m m.granules
    s.unobserved = true → s.takes m 2 = true → s.alone = true → s.atTurn m = true → s.canAnswer m.port 1 = true →
    malformed m = false → misaligned m = false → s.shelf.commit = none →
    s.check75 m.hdr.addr.toNat (32 * m.granules) { domain := 0, tclass := 0, exempt := true } = stOk →
    s.linesKnown m gs = true → s.oneBay m gs b (32 * m.granules) = true →
    ∃ t, exec (.fwr a) s = .next t ∧ Answered s t m 2 (answerHdr m 0x26 stOk) [] ∧ objsBut s t [] ∧
      (∀ off, t.byteAt off =
        if 32 * g0 ≤ off ∧ off < 32 * (g0 + m.granules) then m.payload.getD (off - 32 * g0) 0 else s.byteAt off) ∧
      CarrelServed s t ∧
      t = { s with wire := t.wire, ports := t.ports, seqs := t.seqs, nextId := t.nextId, mem := t.mem
                   free := t.free, bays := t.bays
                   shelf := { s.shelf with isleCache := t.shelf.isleCache, valid := t.shelf.valid }
                   frank := { s.frank with lat := t.frank.lat, latSum := t.frank.latSum, gbucket := t.frank.gbucket } }

/-- FWACK and PUSHACK with OK end the mirror write and the copy they answer; an unmatched one changes nothing. A FWACK OK with
the TAG of an outstanding FWR takes that FWR off its partner's list and answers the WR that waited for it CMP OK; the write is
over. A PUSHACK OK with the TAG of a copy that was pushed, while another copy of the tile still waits to leave, marks that copy
as acknowledged. A FWACK or PUSHACK whose TAG matches nothing outstanding is discarded. -/
def Obligations.AcknowledgesEndWhatTheyAnswer : Prop :=
  (∀ (a : Arrival) (s : State) (p : Partner) (x : SentFwr) (o : Op),
    let m := asMsg a 0x26 1
    s.unobserved = true → s.takes m 1 = true → malformed m = false → m.hdr.status = stOk →
    s.fwrByTag m.hdr.tag = some (p, x) → s.partner p.block = p → x.op = some o.id → s.ops = [o] → o.id < s.nextId → s.waits = [] →
    o.kind = .wr → o.stage = .mirror → o.msg.hdr.ord = false → s.inService o.msg.port = true → s.canAnswer o.msg.port 1 = true →
    ∃ t, exec (.fwack a) s = .next t ∧
      t.wire = returned m 1 ++ Wire.msg o.msg.port (hdrSeal (answerHdr o.msg 0x22 stOk)) [] :: s.wire ∧
      t.partner p.block = { p with unanswered := p.unanswered.filter fun y => y.tag != x.tag } ∧
      (∀ q, q ≠ p.block → t.partner q = s.partner q) ∧
      t = { s with wire := t.wire, ports := t.ports, nextId := t.nextId, ops := [], partners := t.partners }) ∧
  (∀ (a : Arrival) (s : State) (c : Con) (k : Tile) (n j : Nat) (blk : Nat),
    let m := asMsg a 0x27 1
    s.unobserved = true → s.takes m 1 = true → s.alone = true → malformed m = false → m.hdr.status = stOk →
    s.cons = [c] → c.tiles = [k] → k.copies.findIdx (fun x => match x with | .pushed g _ => g == m.hdr.tag | _ => false) = n →
    k.copies[n]? = some (.pushed m.hdr.tag blk) → k.copies[j]? = some .waiting →
    ∃ t, exec (.pushack a) s = .next t ∧ Taken s t m 1 ∧
      t = { s with wire := t.wire, nextId := t.nextId
                   cons := [{ c with tiles := [{ k with copies := k.copies.set n .sent }] }] }) ∧
  (∀ (a : Arrival) (s : State) (i : Instr) (op : BitVec 8), (i, op) ∈ [(Instr.fwack a, 0x26#8), (.pushack a, 0x27#8)] →
    let m := asMsg a op 1
    s.unobserved = true → s.takes m 1 = true → s.alone = true → s.fwrByTag m.hdr.tag = none →
    (∀ c ∈ s.cons, ∀ k ∈ c.tiles, ∀ x ∈ k.copies, ∀ b, x ≠ .pushed m.hdr.tag b) →
    ∃ t, exec i s = .next t ∧ t = { s with wire := returned m 1 ++ s.wire, nextId := t.nextId })

/-- MGMT read and write complete: the MGMTR returns the object's value, or the abort code of the first check that fails. A MGMT
of an enabled class on a port that accepts MGMT, without ORD, CSG and SEQ, taken with nothing in flight, in a session that is
open. A read is answered by a MGMTR OK: of an index or sub-index that is not there, of a write-only object, or of the test-mode
record without Service, with that abort code and no value; else with abort code 0 and the object's value in its type, zeros
after it, for an object whose value is stored that value. Nothing but the session's time of last use changes. (The window, the
event queue and a counter's value have statements of their own.) A write, that every check of R428 before the object's own lets
through, of one of the plain objects (whose only effect is their value) sets it and is answered by a MGMTR OK with abort code 0
and no value. -/
def Obligations.InBandAccessesAreAnswered : Prop :=
  (∀ (a : Arrival) (s : State),
    let m := withW3 (asMsg a 0x0F 0) 0x1000000 0
    let k := Sess.inband m.port m.hdr.srcid.toNat
    let code := if s.hasIndex m.mindex = false then 0x06020000 else match s.objDef m.mindex m.msub with
      | none => 0x06090011
      | some r => if r.acc = .wo then 0x06010001 else if m.mindex = 0x2C60 ∧ (s.current k).priv < 2 then 0x06010000 else 0
    let value := if code = 0 then (match s.objDef m.mindex m.msub with
      | some r => (s.seated k).readObj (s.current k) r m.mindex m.msub
      | none => []) else []
    let g := ceilDiv value.length 32
    s.unobserved = true → s.takes m 0 = true → s.alone = true → malformed m = false → s.clsEnabled (clsOf m) = true →
    bit (s.portCfg m.port) 2 = true → m.hdr.ord = false → m.hdr.csg = false → m.hdr.seq = 0 →
    (s.session k).isSome = true → plainRead m.mindex m.msub = true ∨ (m.mindex = 0x2C60 ∧ s.obj 0x2E00 1 ≠ 1) ∨ code ≠ 0 →
    s.canAnswer m.port (1 + ceilDiv g 2) = true →
    ∃ t, exec (.mgmtRead a) s = .next t ∧
      Answered s t m 0 { answerHdr m 0x24 stOk with len := BitVec.ofNat 12 (g - 1), w4 := BitVec.ofNat 64 code }
        (padTo (ceilDiv g 2 * 64) value) ∧
      (∀ r, s.objDef m.mindex m.msub = some r → code = 0 → r.sel = false → (∀ (u : State) (x : Session), u.computed x m.mindex m.msub = none) →
        value = toBytes r.size (s.obj m.mindex m.msub)) ∧
      (∀ q, q ≠ k → t.session q = s.session q) ∧ objsBut s t [] ∧
      t = { s with wire := t.wire, ports := t.ports, nextId := t.nextId, sessions := t.sessions, dport := t.dport }) ∧
  (∀ (a : Arrival) (s : State) (r : ObjDef) (v : Nat),
    let m := withW3 (asMsg a 0x0F 0) 0x1000000 0x1000000
    let k := Sess.inband m.port m.hdr.srcid.toNat
    s.unobserved = true → s.takes m 0 = true → s.alone = true → malformed m = false → s.clsEnabled (clsOf m) = true →
    bit (s.portCfg m.port) 2 = true → m.hdr.ord = false → m.hdr.csg = false → m.hdr.seq = 0 →
    s.determinism = false → s.objDef m.mindex m.msub = some r → plainWrite m.mindex m.msub = true →
    s.accepts k m.mindex m.msub v = true →
    m.payload = padTo (32 * ceilDiv r.size 32) (toBytes r.size v) → s.canAnswer m.port 1 = true →
    ∃ t, exec (.mgmtWrite a) s = .next t ∧ Answered s t m 0 (answerHdr m 0x24 stOk) [] ∧
      t.obj m.mindex m.msub = v ∧ (∀ q, q ≠ k → t.session q = s.session q) ∧ objsBut s t [(m.mindex, m.msub)] ∧
      t = { s with wire := t.wire, ports := t.ports, nextId := t.nextId, sessions := t.sessions, dport := t.dport
                   objs := t.objs })

/-- An unknown header is refused DENIED, a damaged one is dropped and counted, and the stopped state answers FENCED. A message
taken with nothing in flight whose opcode is not one that the block receives on its channel: on REQ, FWD and COL it is answered
DENIED in the form of its opcode, on RSP it is dropped; nothing else changes. A header flit whose HCRC does not check, the
fifteenth or earlier of its port within 1 ms, is dropped: 0x2041:03 grows by 1, its flits' credits go back, and nothing else
changes. In the stopped state a message on REQ of any of its rows, at a port in service with room and credits for the answer, is
answered in the form of its opcode (an RDR with one data flit of zeros for an RD, an ATOMR, a MGMTR or a CMP): DENIED where a
reserved field of it is not zero or its length does not fit, and else FENCED whatever it asks for; the count of FENCED answers
grows by 1 with each, and no memory, Tally, consignment, request or other object changes. -/
def Obligations.UnknownDamagedAndStopped : Prop :=
  (∀ (a : Arrival) (vc : BitVec 2) (s : State),
    s.unobserved = true → s.takes a vc.toNat = true → s.alone = true → opcodeKnown a vc.toNat = false → a.hdr.ord = false →
    a.hdr.opcode ∉ [0x01#8, 0x04, 0x0D, 0x0F, 0x41, 0x42] → s.canAnswer a.port 1 = true →
    ∃ t, exec (.unknownOpcode a vc) s = .next t ∧
      (if vc = 1 then Taken s t a 1 else Answered s t a vc.toNat (answerHdr a 0x22 stDenied) []) ∧ objsBut s t [] ∧
      t = { s with wire := t.wire, ports := t.ports, nextId := t.nextId }) ∧
  (∀ (a : Arrival) (vc : BitVec 2) (s : State),
    s.unobserved = true → s.takes a vc.toNat = true → ((s.port a.port).discards.filter fun t => s.now < t + 1000000).length < 15 →
    ∃ t, exec (.headerDiscard a vc) s = .next t ∧ t.wire = returned a vc.toNat ++ s.wire ∧
      t.obj 0x2041 3 = s.obj 0x2041 3 + 1 ∧ objsBut s t [(0x2041, 3)] ∧
      (∀ p, t.port p = if p = a.port then
        { s.port p with discards := s.now :: (s.port p).discards.filter fun t => s.now < t + 1000000 } else s.port p) ∧
      t = { s with wire := t.wire, ports := t.ports, objs := t.objs }) ∧
  (∀ (i : Instr) (a : Arrival) (s : State), msgOf i = some a → channelOf i = some 0 →
    let m := asSent i
    let n := if m.hdr.opcode = 0x01 then 2 else 1
    s.unobserved = true → s.stopped = true → s.inService a.port = true →
    flitsOf m.data ≤ (s.port a.port).free.getD (poolOf m 0) 0 → (s.port a.port).holds = [] → s.alone = true → m.hdr.ord = false →
    m.hdr.opcode ≠ 0x41 → m.hdr.opcode ≠ 0x42 → s.canAnswer a.port n = true →
    ∃ t h d, exec i s = .next t ∧ Answered s t m 0 h d ∧ h.tag = m.hdr.tag ∧ h.srcid = m.hdr.srcid ∧
      (malformed m = false → h.status = stFenced ∧ t.obj 0x2050 5 = s.obj 0x2050 5 + 1 ∧ objsBut s t [(0x2050, 5)]) ∧
      (malformed m = true → h.status = stDenied ∧ objsBut s t []) ∧
      t = { s with wire := t.wire, ports := t.ports, objs := t.objs, nextId := t.nextId })

/-- OWNER_LOST and MGMT on a port that does not accept them are answered DENIED and have no effect. For every OWNER_LOST taken
at its turn, and every MGMT read and MGMT write, with nothing in flight, on a port whose configuration object has the accept bit
clear (bit 1 for OWNER_LOST, bit 2 for MGMT): it is answered by a CMP, for MGMT by a MGMTR, with DENIED and no data. The answer,
its credits and an OWNER_LOST's place in its source's order apart, nothing in the block changes: no Tally, object or session. (A
CSG that R61 refuses with another status is refused before. A MGMT with ORD, which R63 does not allow, takes no place: log 44.)
-/
def Obligations.AcceptBitsGateNoticesAndMgmt : Prop :=
  ∀ (i : Instr) (a : Arrival) (s : State), i ∈ [Instr.ownerLost a, .mgmtRead a, .mgmtWrite a] →
    let m := asSent i
    let lost := m.hdr.opcode = 0x0E
    s.unobserved = true → s.takes m 0 = true → s.alone = true → (lost → s.atTurn m = true) → s.canAnswer m.port 1 = true →
    (lost → m.hdr.csg = true → malformed m = false → s.clsEnabled (clsOf m) = true → s.csgStatus m = stOk) →
    bit (s.portCfg m.port) (if lost then 1 else 2) = false →
    ∃ t, exec i s = .next t ∧
      Answered s t { m with hdr := { m.hdr with ord := m.hdr.ord && lost } } 0 (answerHdr m (if lost then 0x22 else 0x24) stDenied) [] ∧
      objsBut s t [] ∧
      t = { s with wire := t.wire, ports := t.ports, seqs := t.seqs, nextId := t.nextId }

/-- CATALOGUE_WRITE: the first check that fails gives the abort code, and an aborted write has no effect. A write in an open
session other than the Clerk's, to an object outside the Data Port, aborts with 0x06020000 where the index does not exist; else
0x06090011 where the sub-index does not; else 0x06010002 where the object is ro or const (0x2600:02 is const); else 0x06010000
where the privilege is too low; else 0x06070010 where the length is not the type's; else 0x06090030 where the value is outside
its range or sets a reserved bit (0x2B00:05 above 2, which Hard Limit 6 also counts, aside); else 0x08000022 where the stopped
state forbids it. In each case nothing changes but the session's time of last use, the answer, and what counts accesses. -/
def Obligations.WriteChecksInOrder : Prop :=
  ∀ (k : Sess) (s : State) (i sub : Nat) (bs : List Byte), s.reaches k = true → (s.session k).isSome = true → sessClerk k = false →
    i ≠ 0x5F00 →
    ∃ t, exec (.catalogueWrite k i sub bs) s = .next t ∧
      (s.hasIndex i = false → Settled k 0x06020000 [] (s.seated k) t) ∧
      (s.hasIndex i = true → s.objDef i sub = none → Settled k 0x06090011 [] (s.seated k) t) ∧
      (∀ r, s.objDef i sub = some r →
        let ro := r.acc = .ro ∨ r.acc = .cnst ∨ (i = 0x2600 ∧ sub = 2)
        let may := s.mayWrite (s.current k) r i sub = true
        (ro → Settled k 0x06010002 [] (s.seated k) t) ∧
        (¬ ro → ¬ may → Settled k 0x06010000 [] (s.seated k) t) ∧
        (¬ ro → may → bs.length ≠ r.size → Settled k 0x06070010 [] (s.seated k) t) ∧
        (¬ ro → may → bs.length = r.size → r.admits (ofBytes bs) = false → ¬ (i = 0x2B00 ∧ sub = 5 ∧ 2 < ofBytes bs) →
          Settled k 0x06090030 [] (s.seated k) t) ∧
        (¬ ro → may → bs.length = r.size → r.admits (ofBytes bs) = true → s.stopped = true → stoppedWrite i sub = false →
          Settled k 0x08000022 [] (s.seated k) t))

/-- The power envelope takes 300 to 640 W; a write outside that range is an access error without effect. A write of a value to
the envelope 0x2020:01, that the access checks before the object's own let through: from 300 to 640 it sets the object and is
answered with abort code 0; any other value is aborted with 0x06090030 and has no effect. -/
def Obligations.PowerEnvelopeHasRange : Prop :=
  ∀ (k : Sess) (s : State) (v : Nat), s.accepts k 0x2020 1 v = true →
    ∃ t, exec (.catalogueWrite k 0x2020 1 (toBytes 2 v)) s = .next t ∧
      (300 ≤ v → v ≤ 640 → Settled k 0 [] ((s.seated k).setObj 0x2020 1 v) t) ∧
      (v < 300 ∨ 640 < v → Settled k 0x06090030 [] (s.seated k) t)

/-- The block number is written only with Service privilege and every client port disabled. The block number is the value of
0x2002:00. A write of 0 to 4,095 to it in an open session other than the Clerk's, outside the stopped state, sets it where the
session has Service privilege and no client port is in service. At any other time it is answered with an access error,
0x06010000 for want of privilege, else 0x08000022, and has no effect. -/
def Obligations.BlockNumberNeedsPortsDisabled : Prop :=
  ∀ (k : Sess) (s : State) (v : Nat), s.reaches k = true → (s.session k).isSome = true → sessClerk k = false → s.stopped = false →
    v < 4096 →
    s.blockNo = s.obj 0x2002 0 ∧
    ∃ t, exec (.catalogueWrite k 0x2002 0 (toBytes 2 v)) s = .next t ∧
      (1 ≤ (s.current k).priv → s.portsDisabled = true → Settled k 0 [] ((s.seated k).setObj 0x2002 0 v) t) ∧
      (1 ≤ (s.current k).priv → s.portsDisabled = false → Settled k 0x08000022 [] (s.seated k) t) ∧
      ((s.current k).priv < 1 → Settled k 0x06010000 [] (s.seated k) t)

/-- CATALOGUE_WRITE: a setting takes the value written, and a selection is the session's own. A write that the checks let
through of a plain setting (an object whose write has no effect but its value) sets that object, and nothing else of the block
changes but the Daybook's record, the session's time of last use, the answer and what counts accesses. A write of a select or
read-index object changes the writing session's own value of it alone: the dictionary and the other sessions are as before. -/
def Obligations.SettingsAndSelectionsTakeTheirValue : Prop :=
  ∀ (k : Sess) (s : State) (i sub v : Nat) (r : ObjDef), s.objDef i sub = some r → s.accepts k i sub v = true →
    ∃ t, exec (.catalogueWrite k i sub (toBytes r.size v)) s = .next t ∧
      (plainWrite i sub = true → Settled k 0 [] ((s.seated k).setObj i sub v) t ∧ t.obj i sub = v) ∧
      (r.sel = true → Settled k 0 [] ((s.seated k).setSession ((s.current k).put i sub v)) t ∧
        (∀ x, t.session k = some x → x.get i sub = v))

/-- CATALOGUE_WRITE: a setting that its rule ties to another object or to the block's state is taken or refused. A write that
the access checks let through is refused without effect, with the code named, where its object's rule refuses it, else it sets
the object: the determinism bit and the die map and starting point outside the awaiting-start hold (0x08000022); a write drain
low watermark not below the high one; a ramp cap below the static priority; shares with a minimum above their ceiling, or whose
sum over the classes exceeds the store; health thresholds out of order; a counter's address range upside down (all 0x06090030);
the Daybook's share and halt while recording is on, and the run seed outside the hold (0x08000022); a Jostle slot while Jostle
is on (0x08000022) or with a reserved bit set (0x06090030). -/
def Obligations.GuardedSettingsKeepTheirRelations : Prop :=
  ∀ (k : Sess) (s : State) (b c n j : Nat) (i sub v code : Nat) (bad : Bool) (r : ObjDef), b < s.size.bays → c < 64 → n < 1664 → j < 16 →
    (i, sub, bad, code) ∈ [
      (0x2001, 0, s.boot.code != 0x10, 0x08000022), (0x2010, 1, s.boot.code != 0x10, 0x08000022),
      (0x2010, 2, s.boot.code != 0x10, 0x08000022),
      (0x2100 + b, 5, decide (s.obj (0x2100 + b) 4 ≤ v), 0x06090030),
      (0x2600 + c, 5, decide (v < s.staticPrio c), 0x06090030),
      (0x2600 + c, 0x0B, decide (s.obj (0x2600 + c) 0x0C < v) || decide (40960 < s.minSum c 0x0B v), 0x06090030),
      (0x2600 + c, 0x0C, decide (v < s.obj (0x2600 + c) 0x0B), 0x06090030),
      (0x2600 + c, 0x0D, decide (s.obj (0x2600 + c) 0x0E < v) || decide (3584 < s.minSum c 0x0D v), 0x06090030),
      (0x2600 + c, 0x0E, decide (v < s.obj (0x2600 + c) 0x0D), 0x06090030),
      (0x2D00, 3, decide (s.obj 0x2D00 4 ≤ v) || decide (v ≤ s.obj 0x2D00 5) || decide (s.obj 0x2D00 6 ≤ s.obj 0x2D00 5), 0x06090030),
      (0x2D00, 6, decide (v ≤ s.obj 0x2D00 5) || decide (s.obj 0x2D00 4 ≤ s.obj 0x2D00 3) || decide (s.obj 0x2D00 3 ≤ s.obj 0x2D00 5),
        0x06090030),
      (0x3000 + n, 4, decide (s.obj (0x3000 + n) 5 < v), 0x06090030), (0x3000 + n, 5, decide (v < s.obj (0x3000 + n) 4), 0x06090030),
      (0x2E00, 2, s.obj 0x2E00 1 == 1, 0x08000022), (0x2E00, 3, s.obj 0x2E00 1 == 1, 0x08000022),
      (0x2E00, 4, s.boot.code != 0x10, 0x08000022),
      (0x3810, j + 1, s.test.jostleAt.isSome || v % 2 ^ 27 != 0, if s.test.jostleAt.isSome then 0x08000022 else 0x06090030)] →
    s.objDef i sub = some r → s.accepts k i sub v = true →
    ∃ t, exec (.catalogueWrite k i sub (toBytes r.size v)) s = .next t ∧
      (bad = true → Settled k code [] (s.seated k) t) ∧ (bad = false → Settled k 0 [] ((s.seated k).setObj i sub v) t)

/-- STAGE_CLEAR, STAGE_VALIDATE and the two key writes: stage status, key and the commit they lead to. While no commit drains, a
clear empties the stage, invalidates the key and sets status, index and reason to 0. A validation that fails sets status 3 with
the failing index and reason; one that passes sets status 2 and issues a key, a fresh free value, over the changed entries. A
first write of the key then sets status 4 if the stage still validates, and notes whether the Clerk wrote it; a second write of
it starts the drain, which waits for the requests sorted under a replaced entry; during the drain it changes nothing more. A
wrong key aborts the attempt with status 6 and reason 10, and a second key from the Clerk after its own first with reason 11 and
Hard Limit 7. With no validated stage a first key, and with no first key a second key, is refused with 0x08000022 and has no
effect. -/
def Obligations.StageAndKeysOfACommit : Prop :=
  ∀ (k : Sess) (s : State) (key : Nat),
    let u := s.seated k
    (s.accepts k 0x2400 2 1 = true → s.draining = false →
      ∃ t, exec (.stageClear k) s = .next t ∧
        Settled k 0 [] { u.sets [(0x2400, 6, 0), (0x2400, 1, 0), (0x2400, 3, 0), (0x2400, 4, 0), (0x2400, 5, 0)] with
                         shelf := { s.shelf with commit := none, stage := [] } } t) ∧
    (s.accepts k 0x2400 2 2 = true → s.draining = false →
      (∀ i why, s.validateStage = .inl (i, why) → ∃ t, exec (.stageValidate k) s = .next t ∧
        Settled k 0 [] { u.sets [(0x2400, 6, 0), (0x2400, 3, 3), (0x2400, 4, i), (0x2400, 5, why)] with
                         shelf := { s.shelf with commit := none } } t) ∧
      (∀ copy, s.validateStage = .inr copy → ∃ t, exec (.stageValidate k) s = .next t ∧
        Settled k 0 [] { u.sets [(0x2400, 6, (Config.freeValue s.free).toNat % 2 ^ 32), (0x2400, 3, 2), (0x2400, 4, 0), (0x2400, 5, 0)] with
                         free := s.free + 1
                         shelf := { s.shelf with commit := some { changes := copy, validAt := s.now } } } t)) ∧
    (s.accepts k 0x2400 7 key = true →
      (∀ c copy, s.shelf.commit = some c → s.obj 0x2400 3 = 2 → key = s.obj 0x2400 6 → s.validateStage = .inr copy →
        ∃ t, exec (.commitKeyFirst k key) s = .next t ∧
          Settled k 0 [] { u.sets [(0x2400, 3, 4)] with
            shelf := { s.shelf with commit := some { c with changes := copy, first := some (sessClerk k) } } } t) ∧
      (∀ c, s.shelf.commit = some c → s.obj 0x2400 3 = 2 → key ≠ s.obj 0x2400 6 → s.ops = [] →
        ∃ t, exec (.commitKeyFirst k key) s = .next t ∧
          Settled k 0 [] { u.sets [(0x2400, 3, 6), (0x2400, 5, 10), (0x2400, 6, 0)] with shelf := { s.shelf with commit := none } } t) ∧
      (s.shelf.commit = none ∨ s.obj 0x2400 3 ≠ 2 →
        ∃ t, exec (.commitKeyFirst k key) s = .next t ∧ Settled k 0x08000022 [] u t)) ∧
    (s.accepts k 0x2400 8 key = true →
      (∀ c, s.shelf.commit = some c → c.drain = none → s.obj 0x2400 3 = 4 → key = s.obj 0x2400 6 →
        ¬ (sessClerk k = true ∧ c.first = some true) →
        ∃ t, exec (.commitKeySecond k key) s = .next t ∧
          Settled k 0 [] { u with
            shelf := { s.shelf with
              commit := some { c with drain := some (s.now, (s.ops.filter (State.sortedUnder c)).map (·.id)) } } } t) ∧
      (∀ c, s.shelf.commit = some c → c.drain ≠ none → s.obj 0x2400 3 = 4 → key = s.obj 0x2400 6 →
        ∃ t, exec (.commitKeySecond k key) s = .next t ∧ Settled k 0 [] u t) ∧
      (∀ c, s.shelf.commit = some c → c.drain = none → s.obj 0x2400 3 = 4 → key = s.obj 0x2400 6 → sessClerk k = true →
        c.first = some true → s.ops = [] → s.silent = true → s.determinism = false →
        ∃ t, exec (.commitKeySecond k key) s = .next t ∧
          Settled k 0 [] ({ u.sets [(0x2400, 3, 6), (0x2400, 5, 11), (0x2400, 6, 0), (0x5F10, 7, s.obj 0x5F10 7 + 1)] with
            shelf := { s.shelf with commit := none } }.raised 0x70 0xFF 7) t) ∧
      (∀ c, s.shelf.commit = some c → s.obj 0x2400 3 = 4 → key ≠ s.obj 0x2400 6 → s.ops = [] →
        ∃ t, exec (.commitKeySecond k key) s = .next t ∧
          Settled k 0 [] { u.sets [(0x2400, 3, 6), (0x2400, 5, 10), (0x2400, 6, 0)] with shelf := { s.shelf with commit := none } } t) ∧
      (s.shelf.commit = none ∨ s.obj 0x2400 3 ≠ 4 →
        ∃ t, exec (.commitKeySecond k key) s = .next t ∧ Settled k 0x08000022 [] u t))

/-- The Catalogue's Tally writes act on the selected Tally alone, and are logged and counted. For n the session's Tally select.
A debugger set on a Tally that is owned or orphaned, no barrier, with no waiter, whose limit the value keeps where it is STRICT,
sets VALUE, with a log entry of kind 3 of the old value and 0x2800:0C one more; on a free Tally it is refused with 0x08000022. A
forced free of one without waiters returns it to its reset state, breaks the bindings of consignments to it, and logs kind 6.
Create shared makes a free Tally an owned one of owner 0xFF with WRAP bit 0 and USE bits 2:1 of the value, and is refused on any
other. LIMIT and WTIMEOUT are set on a Tally that is not free and has no waiters (a barrier's LIMIT to a value above 0 while
nothing has arrived), and refused on a free one. A refused write has no effect. -/
def Obligations.TallyAccessesActOnTheSelected : Prop :=
  ∀ (k : Sess) (s : State) (v : Nat),
    let u := s.seated k
    let n := (s.current k).get 0x2800 1
    let T := s.tally n
    let entry := fun (kind : Nat) => ({ lvalue := T.value, kind := kind, ltop := 0, lport := 63, ltally := n, lsrcid := 0, ltime := s.now }
      : TallyLog)
    let logged := fun (kind : Nat) => ({ u.sets [(0x2801, 1, s.obj 0x2801 1 + 1), (0x2800, 0x0C, s.obj 0x2800 0x0C + 1)] with
      tal := { s.tal with log := (entry kind :: s.tal.log).take 256 } } : State)
    (s.accepts k 0x2800 3 v = true →
      (T.state ≠ 0 → T.use_ ≠ 1 → s.tallyWaiters n = [] → (T.wrap = true ∨ v ≤ T.limit.toNat) →
        ∃ t, exec (.tallyDebugSet k v) s = .next t ∧
          Settled k 0 [] ((logged 3).setTally n { T with value := BitVec.ofNat 32 v }) t) ∧
      (T.state = 0 → ∃ t, exec (.tallyDebugSet k v) s = .next t ∧ Settled k 0x08000022 [] u t)) ∧
    (s.accepts k 0x2800 4 1 = true → (∀ w ∈ s.tal.waiters, w.tally ≠ n) →
      ∃ t, exec (.tallyForcedFree k) s = .next t ∧
        Settled k 0 [] { (logged 6).setTally n {} with
          cons := s.cons.map fun c => { c with ctBound := c.ctBound && c.slip.ctally != some n
                                               ttBound := c.ttBound && c.slip.ttally != some n } } t) ∧
    (s.accepts k 0x2800 5 v = true →
      (T.state = 0 → ∃ t, exec (.tallyCreateShared k v) s = .next t ∧
        Settled k 0 [] (u.setTally n { T with owner := 0xFF, state := 1, wrap := v % 2 = 1, use_ := BitVec.ofNat 2 (v / 2) }) t) ∧
      (T.state ≠ 0 → ∃ t, exec (.tallyCreateShared k v) s = .next t ∧ Settled k 0x08000022 [] u t)) ∧
    (s.accepts k 0x2800 0x0E v = true →
      (T.state ≠ 0 → s.tallyWaiters n = [] → (T.use_ = 1 → T.value = 0 ∧ T.shadow = 0 ∧ T.releasing = false ∧ v ≠ 0) →
        ∃ t, exec (.tallySetLimit k v) s = .next t ∧ Settled k 0 [] (u.setTally n { T with limit := BitVec.ofNat 32 v }) t) ∧
      (T.state = 0 → ∃ t, exec (.tallySetLimit k v) s = .next t ∧ Settled k 0x08000022 [] u t)) ∧
    (s.accepts k 0x2800 0x0F v = true →
      (T.state ≠ 0 → s.tallyWaiters n = [] →
        ∃ t, exec (.tallySetWtimeout k v) s = .next t ∧ Settled k 0 [] (u.setTally n { T with wtimeout := BitVec.ofNat 16 v }) t) ∧
      (T.state = 0 → ∃ t, exec (.tallySetWtimeout k v) s = .next t ∧ Settled k 0x08000022 [] u t))

/-- BLOCK_RESET, PROCEED and TWIN_REJOIN: a reset after the answer, a hold left, a rejoin begun. A block reset is answered, and
then everything is at its reset value but the clock, the key slots, the pins and rails, a pending firmware image, the sensors'
comparators, the straps and the test access port; bring-up is at step 1 and an order challenge is drawn. Proceed in the
awaiting-start hold without TESTEN begins step 3; in the Shelf List hold with no list loaded and none in force it accepts the
empty list; anywhere else it is refused with 0x08000022. Twin rejoin begins step 1 where one twin is disabled, no rejoin runs
and fewer than three have failed; else it is refused. (That the reset follows the answer is a deduction, log 28.) -/
def Obligations.ResetProceedAndRejoin : Prop :=
  ∀ (k : Sess) (s : State),
    let u := s.seated k
    (s.accepts k 0x2000 2 2 = true →
      ∃ t l, exec (.blockReset k) s = .next t ∧ (s.waitsOn k = false → s.twins.disputed = false → t.wire = l ++ Wire.cat k 0 [] :: s.wire) ∧
        t = { (s.cleared s.boot.pendingImage).begun with wire := t.wire }) ∧
    (s.accepts k 0x2000 2 1 = true →
      (s.boot.code = 0x10 → s.boot.testen = false → ∃ t, exec (.proceed k) s = .next t ∧
        Settled k 0 [] { u with boot := { s.boot with step := 3, code := 3, stepAt := s.now } } t) ∧
      (s.boot.code = 0x12 → s.shelf.load = [] → s.shelf.entries = [] → ∃ t, exec (.proceed k) s = .next t ∧
        Settled k 0 [] { u.sets [(0x2400, 4, 0), (0x2400, 5, 0)] with boot := { s.boot with code := 0x0A } } t) ∧
      (s.boot.code ≠ 0x12 → (s.boot.code ≠ 0x10 ∨ s.boot.testen = true) →
        ∃ t, exec (.proceed k) s = .next t ∧ Settled k 0x08000022 [] u t)) ∧
    (s.accepts k 0x2D00 0x15 1 = true →
      let ok := (s.twins.state = 1 ∨ s.twins.state = 2) ∧ s.twins.rejoin = 0 ∧ s.twins.fails < 3
      ∃ t, exec (.twinRejoin k) s = .next t ∧
        (ok → Settled k 0 [] { u with twins := { s.twins with rejoin := 1 } } t) ∧ (¬ ok → Settled k 0x08000022 [] u t))

/-- Calibration run, record and erasure list, shift request and sensor reading: what each write leaves in its bay. For the bay,
PC and set that the session selects. A run request of a PC in service without one requests it and demands a reading of its
quadrant's sensor; another changes nothing. A record of 64 bytes that R331 accepts is stored as restored with its CRC, and any
other is refused with 0x08000020. An erasure list of two lanes of 0 to 35 or 0xFF becomes the PC's erased lanes, and another is
refused with 0x06090030. A shift request of a trained bay that does not move, to a point not in use, waits for its grant from
now; to the point in use it ends a wait; in determinism mode a point not in use is refused with 0x08000022. Sensor read now
demands all six sensors of every bay. -/
def Obligations.TrainingAccesses : Prop :=
  ∀ (k : Sess) (s : State) (bs : List Byte) (c point : Nat), s.Inv →
    let u := s.seated k
    let b := (s.current k).get 0x2B00 6
    let pc := (s.current k).get 0x2B00 7
    let set := (s.current k).get 0x2B00 8
    (s.accepts k 0x2B00 0x0B 1 = true →
      let idle := (s.bay b).train.requested.contains pc = false ∧ (∀ r ∈ (s.bay b).train.runs, r.pc ≠ pc)
      ∃ t, exec (.calRunRequest k) s = .next t ∧
        (s.pcInService b pc = true → idle → Settled k 0 [] (u.modBay b fun y =>
          { y with train := { y.train with requested := insertN y.train.requested pc }
                   therm := { y.therm with converting := insertN y.therm.converting (pc / 16) } }) t) ∧
        (s.pcInService b pc = false ∨ ¬ idle → Settled k 0 [] u t)) ∧
    (bs.length = 64 → s.accepts k 0x2B00 9 (ofBytes bs) = true →
      ∃ t, exec (.calRecordWrite k bs) s = .next t ∧
        (s.calOk b pc set (ofBytes bs) = true →
          Settled k 0 [] (u.putRec b pc set (sealRecord (recSetState (ofBytes bs) 2))) t) ∧
        (s.calOk b pc set (ofBytes bs) = false → Settled k 0x08000020 [] u t)) ∧
    (bs.length = 2 → s.accepts k 0x2C10 3 (ofBytes bs) = true →
      let eb := (s.current k).get 0x2C10 1
      let ep := (s.current k).get 0x2C10 2
      let ok := ∀ x ∈ bs, x.toNat ≤ 35 ∨ x.toNat = 0xFF
      ∃ t, exec (.erasureListWrite k bs) s = .next t ∧
        (ok → Settled k 0 [] (u.setLanes eb { s.lanes eb ep with erased := nub ((bs.map (·.toNat)).filter (· != 0xFF)) }) t) ∧
        (¬ ok → Settled k 0x06090030 [] u t)) ∧
    (c < s.size.bays → s.accepts k (0x2100 + c) 0x0C point = true →
      let y := (s.bay c).sched
      ∃ t, exec (.shiftRequest k c point) s = .next t ∧
        (s.determinism = true → point ≠ s.pointInUse c → Settled k 0x08000022 [] u t) ∧
        (s.determinism = false → y.moving = false → point ≠ y.point → 2 ≤ (s.bay c).repair.state →
          Settled k 0 [] (u.modBay c fun z =>
            { z with sched := { z.sched with want := some point, shift := .awaiting, shiftAt := s.now } }) t) ∧
        (s.determinism = false → y.moving = false → (point = y.point ∨ (s.bay c).repair.state < 2) →
          Settled k 0 [] (u.modBay c fun z => { z with sched := { z.sched with want := some point, shift := .none } }) t)) ∧
    (s.accepts k 0x2A00 6 1 = true →
      ∃ t, exec (.sensorReadNow k) s = .next t ∧
        Settled k 0 [] { u with bays := s.bays.map fun y =>
          { y with therm := { y.therm with converting := (List.range 6).foldl insertN y.therm.converting } } } t)

/-- Withdrawal declaration, ordered fence, fence lift and shadow mode: what each write does, and what refuses it. A declaration
of a PC in service, in a bay that is not fenced and keeps more than 32 PCs, within the bay's allowance, marks the PC
withdrawing, or withdrawn at once where no group uses it; one beyond the allowance is refused with 0x08000022 and Hard Limit 9;
one that R361 refuses has no effect. An ordered fence of a quiet block fences the bay for cause 1, once no other bay stands
fenced by order, where Hard Limit 8 refuses it, and not a bay already fenced. A lift of a bay fenced by order or expulsion: a
tripped or cold-stopped bay stays fenced, now for its heat; a bay not yet brought up is lifted with an event; any other is
swept, and is lifted where the sweep leaves at most 4 PCs out, else stays fenced with reason 3. Of another bay it is refused.
Shadow mode begins only with every port disabled. Events here are those of a block that tells nobody. -/
def Obligations.AvailabilityAccesses : Prop :=
  ∀ (k : Sess) (s : State) (b pc v : Nat) (rep : StepReport), s.silent = true → s.guarSum = 0 → s.frank.gforce = [] → pc < 64 →
    let u := s.seated k
    (s.accepts k 0x2D00 0x0C (64 * b + pc) = true → (∀ c, (s.bay c).repair.withdrawing = 0) →
      ∃ t, exec (.withdrawalDeclaration k (64 * b + pc)) s = .next t ∧
        (s.declareRefused b pc = true → Settled k 0x08000022 [] u t) ∧
        (s.declareRefused b pc = false → s.allowance b ≤ s.declarations b →
          Settled k 0x08000022 [] ((u.sets [(0x5F10, 9, s.obj 0x5F10 9 + 1)]).raised 0x70 0xFF 9) t) ∧
        (s.declareRefused b pc = false → s.declarations b < s.allowance b → b < s.bays.length →
          Settled k 0 [] (u.modBay b fun y =>
            let x := { y with repair := { y.repair with
              withdrawing := BitVec.ofNat 64 (2 ^ pc), declared := s.now :: y.repair.declared } }
            if s.pcUsed b pc then x else x.withdraw pc) t)) ∧
    (s.accepts k 0x2D00 0x0A b = true → s.idle = true → (∀ c ∈ s.mem.carrel, c.dirty = 0) →
      ∃ t, exec (.orderedFence k b) s = .next t ∧
        (s.fenced b = true → Settled k 0x08000022 [] u t) ∧
        (s.fenced b = false → (∃ y ∈ s.bays, y.repair.fence = 1) →
          Settled k 0x08000022 [] ((u.sets [(0x5F10, 8, s.obj 0x5F10 8 + 1)]).raised 0x70 0xFF 8) t) ∧
        (s.fenced b = false → (∀ y ∈ s.bays, y.repair.fence ≠ 1) → Settled k 0 [] (u.fencedNow b 1) t)) ∧
    (s.accepts k 0x2D00 0x0B b = true → s.determinism = false →
      let cause := (s.bay b).repair.fence
      ∃ t, exec (.fenceLift k b rep) s = .next t ∧
        (cause ≠ 1 → cause ≠ 2 → Settled k 0x08000022 [] u t) ∧
        (cause = 1 ∨ cause = 2 → (s.bay b).therm.live = false → Settled k 0 []
          (u.modBay b fun y => { y with repair := { y.repair with fence := 3 } }) t) ∧
        (cause = 1 ∨ cause = 2 → (s.bay b).therm.live = true → (s.bay b).repair.state < 2 → Settled k 0 []
          ((u.modBay b fun y => { y with repair := { y.repair with fence := 0 } }).raised 0x31 b cause) t) ∧
        (cause = 1 ∨ cause = 2 → (s.bay b).therm.live = true → 2 ≤ (s.bay b).repair.state → (u.sweepBay b rep false).2 = true →
          Settled k 0 []
          (((u.sweepBay b rep false).1.modBay b fun y => { y with repair := { y.repair with fence := 0 } }).raised 0x31 b cause) t) ∧
        (cause = 1 ∨ cause = 2 → (s.bay b).therm.live = true → 2 ≤ (s.bay b).repair.state → (u.sweepBay b rep false).2 = false →
          Settled k 0 []
          ((u.sweepBay b rep false).1.modBay b fun y => { y with repair := { y.repair with reason := 3 } }) t)) ∧
    (s.accepts k 0x2D00 0x13 v = true →
      ∃ t, exec (.shadowModeWrite k v) s = .next t ∧
        (v = 1 → s.portsDisabled = false → Settled k 0x08000022 [] u t) ∧
        (v ≠ 1 ∨ s.portsDisabled = true → Settled k 0 [] (u.setObj 0x2D00 0x13 v) t))

/-- New run, replay select, pause, resume and Postmark self-test: what each write does. A new run counts one at 0x2E00:05, sets
block time to zero, clears the flags but DETERMINISM, and counts admissions from 0. A replay selection of 1 or 2 arms the loaded
recording, with status 1, unless none is loaded or it is NONREPLAY or INCOMPLETE, where 0x08000022 refuses it; 0 disarms it. A
pause request sets state 1 and notes when, unless the block pauses or is paused. Resume of a paused block ends the pause and
moves the tiles' times on by its length, where no armed Tally fell due; of another it is refused. The self-test leaves SHA-256
of "abc" at 0x2E00:12 and 0 at 0x2E00:10 where that is FIPS 180-4's, else 1. -/
def Obligations.RunReplayAndPauseAccesses : Prop :=
  ∀ (k : Sess) (s : State) (v : Nat),
    let u := s.seated k
    (s.accepts k 0x2E00 7 1 = true → ∃ t, exec (.newRun k) s = .next t ∧ t.time = 0 ∧ t.day.admissions = 0 ∧
      (s.obj 0x2E00 1 ≠ 1 → t.obj 0x2E00 6 = if s.determinism then 8 else 0) ∧
      Settled k 0 [] { u.sets [(0x2E00, 5, s.obj 0x2E00 5 + 1)] with runStart := s.now } t) ∧
    (s.accepts k 0x2E00 0x0A v = true →
      let no := s.day.loaded = [] ∨ bit s.day.loadedFlags 0 = true ∨ bit s.day.loadedFlags 2 = true
      ∃ t, exec (.replaySelect k v) s = .next t ∧
        (v ≠ 0 → no → Settled k 0x08000022 [] u t ∧ t.day = s.day) ∧
        (v = 0 ∨ ¬ no → Settled k 0 [] (u.setObj 0x2E00 0x0A v) t ∧ t.day.armed = decide (v ≠ 0) ∧
          t.obj 0x2E00 0x0B = if v = 0 then 0 else 1)) ∧
    (s.accepts k 0x2E00 0x0D 1 = true → ∃ t, exec (.pauseRequest k) s = .next t ∧
      (s.pausing = false → Settled k 0 [] (u.setObj 0x2E00 0x0E 1) t ∧ t.day = { s.day with pausedAt := some s.now }) ∧
      (s.pausing = true → Settled k 0x08000022 [] u t)) ∧
    (s.accepts k 0x2E00 0x0D 2 = true → ∃ t, exec (.resume k) s = .next t ∧
      (s.obj 0x2E00 0x0E = 2 → (∀ e ∈ s.tal.tallies, ¬ (e.2.armed = true ∧ e.2.late = true)) →
        let d := s.now - s.day.pausedAt.getD s.now
        t.day.pausedAt = none ∧
        Settled k 0 [] { u.setObj 0x2E00 0x0E 0 with
          cons := s.cons.map fun c =>
            { c with tiles := c.tiles.map fun x => { x with openedAt := x.openedAt + d, stagedAt := x.stagedAt + d } } } t) ∧
      (s.obj 0x2E00 0x0E ≠ 2 → Settled k 0x08000022 [] u t)) ∧
    (s.accepts k 0x2E00 0x11 1 = true → ∃ t, exec (.postmarkSelfTest k) s = .next t ∧
      (let d := sha256 [0x61, 0x62, 0x63]
       let good := 0xba7816bf8f01cfea414140de5dae2223b00361a396177a9cb410ff61f20015ad
       t.day = { s.day with selfTest := d } ∧
       Settled k 0 [] (u.setObj 0x2E00 0x10 (if d = toBytesBe 32 good then 0 else 1)) t))

/-- Login, logout, idle time, lockout, and the reading of events, each in its own session. A login of bad coding is refused with
0x06090030. Any other draws the session a new challenge: within a lockout it is refused with 0x08000021; with a trusted key and
a valid signature over the old challenge it gives the level asked for; else it is refused with 0x08000000, and the third refusal
clears the count and locks the session out for 10 s. A logout sets Operator privilege. When 600 s have passed without an access
the session is at Operator privilege; when 10 s have passed its lockout ends. An event read returns the 16 bytes of the
session's next event and moves its pointer on; with none it waits 1 s, unanswered; at that time it is answered with zeros. No
other session changes. (The clock of the timed rows is the model's reading, log 2.) -/
def Obligations.SessionsLoginsAndEvents : Prop :=
  ∀ (k : Sess) (s : State) (bs : List Byte),
    let u := s.seated k
    let x := s.current k
    let y := { x with chal := Config.freeValue s.free }
    let v := { u with free := s.free + 1 }
    let level := (bs.getD 0 0).toNat
    (bs.length = 196 → s.accepts k 0x1F00 2 (ofBytes bs) = true →
      let ok := (s.loginKey bs).2 = true ∧ ecdsaValid (s.loginKey bs).1 ((bs.drop 100).take 96) (loginText x.chal level) = true
      ∃ t, exec (.login k bs) s = .next t ∧
        (loginCoded bs = false → Settled k 0x06090030 [] u t) ∧
        (loginCoded bs = true → s.now < x.lockTill → Settled k 0x08000021 [] (v.setSession y) t) ∧
        (loginCoded bs = true → x.lockTill ≤ s.now → ok → Settled k 0 [] (v.setSession { y with priv := level }) t) ∧
        (loginCoded bs = true → x.lockTill ≤ s.now → ¬ ok → x.bad < 2 →
          Settled k 0x08000000 [] (v.setSession { y with bad := x.bad + 1 }) t) ∧
        (loginCoded bs = true → x.lockTill ≤ s.now → ¬ ok → 2 ≤ x.bad →
          Settled k 0x08000000 [] (v.setSession { y with bad := 0, lockTill := s.now + 10000000000 }) t)) ∧
    (s.accepts k 0x1F00 4 1 = true → ∃ t, exec (.logout k) s = .next t ∧ Settled k 0 [] (u.setSession { x with priv := 0 }) t) ∧
    (∀ z, s.session k = some z → s.setCounters = [] →
      (∃ t, exec (.sessionIdleTimeout k) s = .next t ∧
        t = { s.setSession { z with priv := 0 } with now := max s.now (z.used + 600000000000) }) ∧
      (z.lockTill ≠ 0 → ∃ t, exec (.loginLockoutEnd k) s = .next t ∧
        t = { s.setSession { z with lockTill := 0 } with now := max s.now z.lockTill }) ∧
      (∀ d ws, z.evWait = (d, none) :: ws → ∃ t, exec (.eventReadTimeout k) s = .next t ∧
        t = { s.setSession { z with evWait := ws } with now := max s.now d, wire := t.wire, buses := t.buses, twins := t.twins } ∧
        (s.twins.disputed = false → t.twins = s.twins ∧
          (s.waitsOn k = false → t.wire = Wire.cat k 0 (zeros 16) :: s.wire ∧ t.buses = s.buses)))) ∧
    (s.reaches k = true → (s.session k).isSome = true →
      (∀ e z, s.nextEvent x = some (e, z) → ∃ t, exec (.eventRead k) s = .next t ∧ Settled k 0 e.bytes (u.setSession z) t) ∧
      (s.nextEvent x = none → ∃ t, exec (.eventRead k) s = .next t ∧
        t = { u.setSession { x with evWait := x.evWait ++ [(s.now + 1000000000, none)] } with
              test := { s.test with ctrs := t.test.ctrs } }))

/-- The Data Port: open, window, close, abandon and the end of a hold. An open in a direction that the state and the privilege
allow, while no other session holds the port, gives the session the hold, address 0 and for reading the target's length; held by
another it is refused with 0x08000021. A window read of the holder returns the burst at the address and moves on past it; a
window write adds its bytes in order to a target judged whole, and else stores its records. Abandon, and close of a target that
is not judged whole, end the hold and discard what was received. Close of an expulsion order that fails a check counts it
refused with the check's number. A window access that breaks the unit of the target held is refused with 0x06070010. A session
that does not hold the port is else refused, with 0x08000021 where another does and 0x08000022 where none does. A hold ends 10 s
after its last access (the clock then is the model's reading, log 2). -/
def Obligations.DataPortTransfers : Prop :=
  ∀ (k : Sess) (s : State) (bs : List Byte),
    let u := s.seated k
    let D := u.dport
    let freed := { D with holder := none, content := [], length := 0, whole := false }
    let denied := if D.holder = none then 0x08000022 else 0x08000021
    (∀ (i : Instr) (dir : Nat), (i, dir) ∈ [(Instr.dataPortOpenRead k, 1), (.dataPortOpenWrite k, 2)] → s.accepts k 0x5F00 3 dir = true →
      s.portPriv (s.current k) D.target dir = true →
      ∃ t, exec i s = .next t ∧
        (D.holder = none ∨ D.holder = some k → u.mayOpen D.target dir = true →
          Settled k 0 [] { u with dport := { D with
            holder := some k, opened := D.target, whole := s.wholeTarget D.target dir, addr := 0, dir := dir
            content := if dir = 1 then u.portSnapshot D.target else [], length := if dir = 1 then u.portLength D.target else 0
            used := s.now, refused := false } } t) ∧
        (D.holder ≠ none → D.holder ≠ some k → Settled k 0x08000021 [] u t)) ∧
    (s.accepts k 0x5F00 3 3 = true → ∃ t, exec (.dataPortClose k) s = .next t ∧
      (D.holder = some k → D.whole = false → Settled k 0 [] { u with dport := { freed with used := s.now } } t) ∧
      (D.holder = some k → D.whole = true → D.opened = 0x2D00 → D.content ≠ [] → u.orderCheck D.content ≠ 0 →
        Settled k 0 [] { u.sets [(0x2D00, 0x10, s.obj 0x2D00 0x10 + 1), (0x2D00, 0x11, u.orderCheck D.content)] with
                         dport := { freed with used := s.now } } t) ∧
      (D.holder ≠ some k → Settled k denied [] u t)) ∧
    (s.accepts k 0x5F00 3 4 = true → ∃ t, exec (.dataPortAbandon k) s = .next t ∧
      (D.holder = some k → Settled k 0 [] { u with dport := { freed with used := s.now } } t) ∧
      (D.holder ≠ some k → Settled k denied [] u t)) ∧
    (s.reaches k = true → (s.session k).isSome = true → s.stopped = false →
      let n := min (u.portBurst (s.current k)) (D.length - D.addr)
      let unit := u.portUnit D.opened D.addr n
      ∃ t, exec (.dataPortWindowRead k) s = .next t ∧
        (D.holder = some k → D.addr % unit = 0 → u.portBurst (s.current k) % unit = 0 → u.portBurst (s.current k) ≠ 0 → D.dir = 1 →
          D.addr < D.length →
          Settled k 0 (u.portBytes D.addr n) { u with dport := { D with addr := D.addr + n, used := s.now } } t) ∧
        (let fits := D.addr % unit = 0 ∧ u.portBurst (s.current k) % unit = 0 ∧ u.portBurst (s.current k) ≠ 0
         (D.holder ≠ none → ¬ fits →
          Settled k 0x06070010 [] (if D.holder = some k then { u with dport := { D with used := s.now } } else u) t) ∧
         (D.holder ≠ some k → D.holder = none ∨ fits → Settled k denied [] u t))) ∧
    (s.reaches k = true → (s.session k).isSome = true → s.stopped = false → 1 ≤ bs.length → bs.length ≤ 4096 →
      let unit := u.portUnit D.opened D.addr bs.length
      ∃ t, exec (.dataPortWindowWrite k bs) s = .next t ∧
        (D.holder = some k → D.addr % unit = 0 → bs.length % unit = 0 → D.dir = 2 → D.whole = true → D.addr = D.content.length →
          Settled k 0 [] { u with dport := { D with content := D.content ++ bs, addr := D.addr + bs.length, used := s.now } } t) ∧
        (∀ w code, D.holder = some k → D.addr % unit = 0 → bs.length % unit = 0 → D.dir = 2 → D.whole = false →
          ({ u with dport := { D with used := s.now } } : State).putRecords D.opened D.addr bs = (some w, code) →
          Settled k 0 [] { w with dport := { D with addr := D.addr + bs.length, used := w.now } } t) ∧
        (D.holder ≠ none → ¬ (D.addr % unit = 0 ∧ bs.length % unit = 0) →
          Settled k 0x06070010 [] (if D.holder = some k then { u with dport := { D with used := s.now } } else u) t) ∧
        (D.holder ≠ some k → D.holder = none ∨ (D.addr % unit = 0 ∧ bs.length % unit = 0) → Settled k denied [] u t)) ∧
    (s.dport.holder ≠ none → s.setCounters = [] → ∃ t, exec .dataPortHoldTimeout s = .next t ∧
      t = { s with now := max s.now (s.dport.used + 10000000000)
                   dport := { s.dport with holder := none, content := [], length := 0, whole := false } })

/-- Freeze, resume and clear of counters, a control word, and Jostle on and off. A freeze, resume or clear of all takes effect 8
Registry cycles after the write (the model passes them in the write, log 29): a freeze keeps its sample time, a later freeze the
earlier one's, a resume ends it, and a clear empties every counter. A clear of the selected counter clears it, or its pair where
they are chained. A control word of an event that the counter's kind has, unchained or of an odd counter, is taken, and one of
another is refused with 0x06090030; where it does not change chaining the counts stand. Jostle begins in a running block that
does not pause, where no slot is bad: its slots are seeded and ERROR is 0; with a bad slot it is refused with 0x06090030 and
ERROR tells which; elsewhere with 0x08000022. With no slot in force its end sets it off and nothing else changes. -/
def Obligations.CountersAndJostleAccesses : Prop :=
  ∀ (k : Sess) (s : State) (c v : Nat),
    let u := s.seated k
    let later := s.now + 8
    (s.accepts k 0x3680 4 1 = true → ∃ t, exec (.counterFreeze k) s = .next t ∧
      Settled k 0 [] { u with now := later, test := { s.test with frozen := some (s.test.frozen.getD (later - s.runStart)) } } t) ∧
    (s.accepts k 0x3680 4 2 = true → ∃ t, exec (.counterResume k) s = .next t ∧
      Settled k 0 [] { u with now := later, test := { s.test with frozen := none } } t) ∧
    (s.accepts k 0x3680 4 3 = true → ∃ t, exec (.counterClearAll k) s = .next t ∧ (s.setCounters = [] → t.test.ctrs = []) ∧
      Settled k 0 [] { u with now := later } t) ∧
    (s.accepts k 0x3680 5 1 = true →
      let sel := (s.current k).get 0x3680 1
      ∃ t, exec (.counterClear k) s = .next t ∧ Settled k 0 [] u t ∧
        (s.setCounters = [] → t.test.ctrs =
          if 1664 ≤ sel then s.test.ctrs else if s.chained sel then delA (delA s.test.ctrs (sel / 2 * 2)) (sel / 2 * 2 + 1)
          else delA s.test.ctrs sel)) ∧
    (c < 1664 → s.accepts k (0x3000 + c) 1 v = true →
      let bad := (bit v 19 = true ∧ c % 2 = 0) ∨ (v % 65536 ≠ 0 ∧ eventOfKind (c < 1536) (v % 65536) = false)
      ∃ t, exec (.counterControlWrite k c v) s = .next t ∧
        (bad → Settled k 0x06090030 [] u t) ∧
        (¬ bad → Settled k 0 [] (u.setObj (0x3000 + c) 1 v) t)) ∧
    (s.accepts k 0x3800 1 1 = true →
      let mask := ((List.range 16).filter fun i => s.slotBad (s.obj 0x3810 (i + 1))).foldl (fun m i => m ||| 2 ^ i) 0
      ∃ t, exec (.jostleEnable k) s = .next t ∧
        (s.test.jostleAt = none → s.running = true → s.pausing = false → mask = 0 → (∀ i < 16, jKind (s.obj 0x3810 (i + 1)) ≠ 5) →
          Settled k 0 [] { u.sets [(0x3800, 1, 1), (0x3800, 6, 0)] with
            test := { s.test with
              jostleAt := some s.now, jostleEnded := []
              jostleGen := (List.range 16).map fun i => (i, lfsrSeed (BitVec.ofNat 64 (s.obj 0x3800 3) ^^^ BitVec.ofNat 64 i)) } } t) ∧
        (s.test.jostleAt = none → s.running = true → s.pausing = false → mask ≠ 0 →
          Settled k 0x06090030 [] (u.setObj 0x3800 6 mask) t) ∧
        (s.test.jostleAt = none → (s.running = false ∨ s.pausing = true) → Settled k 0x08000022 [] u t)) ∧
    (s.accepts k 0x3800 1 0 = true → ∃ t, exec (.jostleDisable k) s = .next t ∧
      (s.test.jostleAt ≠ none → s.jSlots = [] →
        Settled k 0 [] { u.setObj 0x3800 1 0 with test := { s.test with jostleAt := none, jostleEnded := [], jostleGen := [] } } t))

/-- A port's configuration, a class's rates and a Timetable commit: what each write leaves. A configuration word of the same
enable sets the object. One that clears it, on a port in service with nothing of its own waiting, takes the port down: pools and
credits are gone. One that sets it again on a running block with no mirror copy outstanding brings it up: pools empty, credits
none, and the twelve returns of R41 go out. A rate or burst size, CIR not above PIR, changes only its class: the levels as
filled up to now are cut to the new depths, a debt no deeper than the new PBS or forgiven where FORGIVE says so. A Timetable
commit of a list of 1 to 256 entries of 64 ns to 1 s with none waiting stores it with its base time, and when it takes effect;
another is counted at 0x2700:0D and refused with 0x08000022. (That a disabled port drops its pools is a deduction, log 27.) -/
def Obligations.PortMeterAndTimetableWrites : Prop :=
  ∀ (k : Sess) (s : State) (p c sub v : Nat),
    let u := s.seated k
    (p < s.size.ports → s.accepts k 0x2040 (p + 1) v = true →
      let was := bit (s.portCfg p) 0
      let q := s.port p
      ∃ t, exec (.portConfigWrite k p v) s = .next t ∧
        (was = bit v 0 → Settled k 0 [] (u.setObj 0x2040 (p + 1) v) t) ∧
        (was = true → bit v 0 = false → s.Inv → s.ops = [] → s.seqs = [] → s.test.tagged = [] → q.outq = [] →
          (∀ e ∈ s.tal.tallies, ¬ (e.2.state = 1 ∧ e.2.owner ≠ 0xFF ∧ e.2.pbind = true ∧ e.2.oport.toNat = p)) →
          Settled k 0 [] ((u.setObj 0x2040 (p + 1) v).setPort p { q with
            up := false, credits := List.replicate 8 0, free := List.replicate 8 0, covered := [], outq := [], discards := [], holds := [] }) t) ∧
        (was = false → bit v 0 = true → s.Inv → s.running = true → s.twins.roster.getLsbD (216 + p) = true →
          (s.bay (p / 2)).repair.island = true → s.partners = [] →
          Settled k 0 [] { (u.setObj 0x2040 (p + 1) v).setPort p { q with
              up := true, linkDown := false, credits := List.replicate 8 0, covered := [], free := initialPools, outq := [], discards := [] } with
            wire := (initialReturns.map (Wire.credit p)).reverse ++ s.wire } t)) ∧
    (c < 64 → sub ∈ [6, 7, 8, 9] → s.accepts k (0x2600 + c) sub v = true →
      let m := s.meter (.cls c)
      let w := u.setObj (0x2600 + c) sub v
      let cbs : Int := w.obj (0x2600 + c) 7 * 1024000
      let pbs : Int := w.obj (0x2600 + c) 9 * 1024000
      let bad := (sub = 6 ∧ s.obj (0x2600 + c) 8 < v) ∨ (sub = 8 ∧ v < s.obj (0x2600 + c) 6)
      ∃ t, exec (.meterRateWrite k c sub v) s = .next t ∧
        (bad → Settled k 0x06090030 [] u t) ∧
        (¬ bad → m.slot = none →
          Settled k 0 [] { w with frank := { s.frank with meters := t.frank.meters } } t ∧
          (∀ j, j ≠ MeterKey.cls c → t.meter j = s.meter j) ∧
          t.meter (.cls c) = { m with
            tc := min m.tc cbs
            tp := if m.tp < 0 then (if bit (s.obj (0x2600 + c) 1) 3 then 0 else max m.tp (-pbs)) else min m.tp pbs })) ∧
    (s.accepts k 0x2700 5 1 = true →
      let len := s.obj 0x2700 4
      let list := (List.range len).map s.table.entry
      let ok := len ≠ 0 ∧ s.table.waiting = none ∧ ∀ e ∈ list, 64 ≤ e.2 ∧ e.2 ≤ 1000000000
      ∃ t, exec (.timetableCommit k) s = .next t ∧
        (ok → Settled k 0 [] { u with table := { s.table with
          waiting := some (s.obj 0x2700 2, s.obj 0x2700 3, list)
          effect := if s.tod.state = 0 then s.obj 0x2700 2 else s.effectAt (s.obj 0x2700 2) (s.obj 0x2700 3) } } t) ∧
        (¬ ok → Settled k 0x08000022 [] (u.sets [(0x2700, 0x0D, s.obj 0x2700 0x0D + 1)]) t))

/-- Credit returns, the escape fallback, and what becomes of a source's held requests. A credit return of CR0 or CR1, on a port
in service where nothing of its class waits, adds 1 to 16, or 256 to 4,096, flits to its channel. A message that waits for
normal credits, which do not cover it while escape credits do, leaves with ESCAPE set once normal credits have been short for it
for the escape threshold. The release of an ORD full, release or acquire FENCE at the head of its sequence, with nothing in
flight, answers it CMP OK. A request held for the ordering timeout, alone, is answered TIMEOUT and its sequence's state goes.
The state of a sequence with nothing held or executing goes the ordering timeout after its last answer. (The clock of the timed
rows is the model's reading, log 2.) -/
def Obligations.CreditsEscapeAndHeldRequests : Prop :=
  (∀ (s : State) (p : Nat) (cr : BitVec 9),
    let vc := cr.toNat / 32 % 8
    let n := (cr.toNat % 16 + 1) * if cr.toNat / 16 % 2 = 1 then 256 else 1
    let q := s.port p
    s.inService p = true → 256 ≤ cr.toNat → (∀ m ∈ q.outq, m.hdr.mclass.toNat ≠ vc) →
    ∃ t, exec (.creditReturn p cr) s = .next t ∧
      t = s.setPort p (q.setCredits s.now vc (q.credits.getD vc 0 + n))) ∧
  (∀ (s : State) (p : Nat) (m : OutMsg),
    let q := s.port p
    let i := 4 + m.hdr.mclass.toNat
    s.unobserved = true → s.inService p = true → q.outq = [m] → flitsOf m.data ≤ q.credits.getD i 0 →
    q.credits.getD m.hdr.mclass.toNat 0 < flitsOf m.data →
    ∃ t, exec (.escapeFallback p m.hdr.mclass) s = .next t ∧
      let n := max s.now (max m.since (q.lastCover m.hdr.mclass.toNat (flitsOf m.data)) + s.obj 0x2041 2 * 1000)
      t = { s.setPort p { q.setCredits n i (q.credits.getD i 0 - flitsOf m.data) with outq := [] } with
        now := n
        wire := Wire.msg p (hdrSeal { m.hdr with escape := true }) m.data :: s.wire }) ∧
  (∀ (s : State) (key : SrcKey) (h : HeldReq),
    let a := h.msg
    let q := s.seqOf key
    s.unobserved = true → s.alone = true → s.pausing = false → s.inService a.port = true → (s.port a.port).holds = [] →
    q.turn = [h] → seqKey a = key → a.hdr.opcode = 0x0C → a.hdr.mclass = 0 → a.hdr.ord = true → a.hdr.csg = false →
    malformed a = false → a.fkind ≤ 2 → s.franksNow a = true → s.canAnswer a.port 1 = true →
    (∀ w ∈ s.tal.waiters, ¬ (w.msg.hdr.ord = true ∧ seqKey w.msg = key)) →
    ∃ t, exec (.ordRelease key) s = .next t ∧ SentAndFreed s t a (answerHdr a 0x22 stOk) [] ∧ charged s t a 64 ∧
      t.seqOf key = { q with turn := [], last := some h.id, idleAt := s.now } ∧ (∀ k, k ≠ key → t.seqOf k = s.seqOf k) ∧
      t = { s with nextId := t.nextId, wire := t.wire, ports := t.ports, seqs := t.seqs, objs := t.objs }) ∧
  (∀ (s : State) (key : SrcKey) (h : HeldReq),
    let a := h.msg
    s.unobserved = true → s.alone = true → s.inService a.port = true → (s.port a.port).holds = [] → (s.seqOf key).held = [h] →
    (s.seqOf key).turn = [] → seqKey a = key → a.hdr.opcode ∈ [0x02#8, 0x08, 0x0C, 0x0E] → s.canAnswer a.port 1 = true →
    ∃ t, exec (.orderingTimeout key a.hdr.seq) s = .next t ∧ SentAndFreed s t a (answerHdr a 0x22 stTimeout) [] ∧
      t = { s with now := max s.now (h.at_ + s.obj 0x2041 1 * 1000), wire := t.wire, ports := t.ports
                   seqs := s.seqs.filter fun x => x.key != key }) ∧
  (∀ (s : State) (key : SrcKey) (q : SeqSt), s.setCounters = [] → (s.seqs.find? fun x => x.key == key) = some q → s.seqBusy key = false →
    ∃ t, exec (.seqStateDrop key) s = .next t ∧
      t = { s with now := max s.now (q.idleAt + s.obj 0x2041 1 * 1000), seqs := s.seqs.filter fun x => x.key != key })

/-- BAY_INGRESS, STAGE_CONFIRM, VALID_BIT_FETCH and REQUEST_AGED: a request's way to the stack. A part that needs the stack, at
its turn in its bay's ingress and with no hold in force there, enters its bank queue with its class, static priority and time,
where the queue has fewer than 8 entries and its class has space; at a full queue it waits for that bank, and without space it
stays. A confirmation of a bay that others must follow is noted. With a line of valid bits a lone read of clear blocks of that
line answers zeros, whatever the stack holds. A queued read older than the age cap becomes aged, and no entry of another request
changes. (The clock of the aging is the model's reading, log 2.) -/
def Obligations.RequestsEnterAndAwaitTheirBays : Prop :=
  (∀ (s : State) (o : Op) (i bank row : Nat) (p : Part),
    let y := (s.bay p.bay).sched
    let c := clsOf o.msg
    let put := fun (z : Part) => s.ops.map fun x => if x.id = o.id then { x with parts := x.parts.mapIdx fun j w =>
      if j = i then { w with phase := z.phase, waitBank := z.waitBank } else w } else x
    s.Inv → s.unobserved = true → s.op o.id = some o → o.parts[i]? = some p → o.inIngress p.bay c p = true →
    p.bay < s.size.bays → bank < 64 → y.ingressHold ≤ y.cycle → s.ingressTurn o i bank p = true →
    (8 ≤ (y.bankQueue p.pc bank).length →
      exec (.bayIngress o.id i bank row) s = .next { s with ops := put { p with waitBank := some bank } }) ∧
    ((y.bankQueue p.pc bank).length < 8 → s.spaceOk p.bay c 32 = false → exec (.bayIngress o.id i bank row) s = .next s) ∧
    ((y.bankQueue p.pc bank).length < 8 → s.spaceOk p.bay c 32 = true → (c = 0 → s.inWindow p.bay p.pc = false) →
      ∃ t, exec (.bayIngress o.id i bank row) s = .next t ∧
        (t.bay p.bay).sched.queue = y.queue ++ [{
          op := o.id, part := i, pc := p.pc, bank := bank, row := row, cls := c
          prio := s.flooredPrio c (p.gran / 2 ^ 19), green := o.green, at_ := s.now }] ∧
        (∀ b, b ≠ p.bay → t.bay b = s.bay b) ∧
        t = { s with bays := t.bays, ops := put { p with phase := .queued, waitBank := none } })) ∧
  (∀ (s : State) (o : Op) (b : Nat), s.ops = [o] → o.stage = .staged → b ∈ o.await → (∃ c ∈ o.await, c ≠ b) → (∀ p ∈ o.parts, p.bad = false) →
    s.spaceOk b (clsOf o.msg) (32 * (o.written.filter fun i => (s.place (32 * (o.first + i))).1 == b).length) = true →
    ∃ t, exec (.stageConfirm o.id b) s = .next t ∧ t = { s with ops := [{ o with await := o.await.filter (· != b) }] }) ∧
  (∀ (s : State) (o : Op) (line : Nat) (ok1 ok2 : Bool),
    let n := o.msg.granules
    s.unobserved = true → s.waits = [] → s.ops = [o] → o.kind = .rd → o.stage = .vbit line → o.msg.hdr.opcode = 0x01 → o.msg.hdr.ord = false →
    s.inService o.msg.port = true → s.canAnswer o.msg.port (1 + ceilDiv n 2) = true →
    (∀ g ∈ spanGranules o.msg n, g / 128 / 512 = line ∧ s.validBit (g / 128) = false) → s.shelf.badLines = [] →
    (ok1 = true ∧ s.copyGood (s.storeBays line).1 line = true) ∨ (ok2 = true ∧ s.copyGood (s.storeBays line).2 line = true) →
    ∃ t, exec (.validBitFetch line ok1 ok2) s = .next t ∧ SentOn s t o.msg.port (rdrOf o.msg) (zeros (64 * ceilDiv n 2)) ∧
      t.shelf.regCache.head? = some line ∧ t.shelf.valid = s.shelf.valid ∧
      t = { s with wire := t.wire, ports := t.ports, ops := [], frank := t.frank, shelf := t.shelf }) ∧
  (∀ (s : State) (b i : Nat) (o : Op) (q : BankReq), s.Inv → b < s.size.bays → s.setCounters = [] →
    ((s.bay b).sched.queue.find? fun x => !x.write && x.op == o.id && x.part == i && !x.aged) = some q →
    ∃ t, exec (.requestAged b o.id i) s = .next t ∧
      t = { s.modBay b fun y => { y with sched := { y.sched with
              queue := y.sched.queue.map fun x => if x = q then { x with aged := true } else x } } with
            now := max s.now (q.at_ + s.obj (0x2100 + b) 1 + 1) })

/-- BAY_COMMAND_ISSUE and the refresh of a bank: what a cycle, an interval, a burst's end and the limiter do. A cycle of a bay
with nothing queued and no bank listed passes and does nothing else. Where one PC has something to do, no retrain window, shift
or Shelf Reading slot holds it and command selection gives a read, that read leaves its bank queue for the stack. A row left
open on an idle bank is precharged at its limit, as soon as the parameters allow. Each interval adds 1 to a bank's owed count as
it falls due, and sets its next due instant; above the limit in force a refresh is forced, but not in a retrain window; no other
bank changes. A burst ends at its hold's end. The limiter refreshes a bank 975 ns after it came to owe 9, is counted at
0x2200+n:27 and engages Hard Limit 2. (The clock of the timed rows is the model's reading, log 2.) -/
def Obligations.BayCommandsAndRefresh : Prop :=
  (∀ (s : State) (b : Nat), s.Inv → b < s.size.bays → s.unobserved = true → (s.bay b).sched.queue = [] → (s.bay b).sched.banks = [] →
    ∃ t, exec (.bayCommandIssue b) s = .next t ∧
      t = s.modBay b fun y => { y with sched := { y.sched with cycle := y.sched.cycle + 1 } }) ∧
  (∀ (s : State) (b : Nat) (o : Op) (q : BankReq),
    let y := (s.bay b).sched
    s.Inv → b < s.size.bays → s.unobserved = true → s.stackHeld b = false → s.inWindow b q.pc = false → (s.bay b).therm.level ≤ 1 →
    s.busyPcs b = [q.pc] → (s.drainState b q.pc).pickColumn b q.pc = some q → (y.pcOf q.pc).taken = false → q.write = false → q ∈ y.queue →
    s.op q.op = some o →
    ∃ t, exec (.bayCommandIssue b) s = .next t ∧ (t.bay b).sched.queue = y.queue.erase q ∧ (t.bay b).sched.cycle = y.cycle + 1 ∧
      (∀ c, c ≠ b → t.bay c = s.bay c) ∧
      t.ops = (s.ops.map fun x => if x.id = q.op then { x with parts := x.parts.mapIdx fun i p =>
        if i = q.part then { p with phase := .stack } else p } else x) ∧
      t = { s with bays := t.bays, ops := t.ops, objs := t.objs }) ∧
  (∀ (s : State) (b pc bank : Nat),
    let y := (s.bay b).sched
    let k := y.bankOf pc bank
    s.Inv → b < s.size.bays → s.setCounters = [] → s.stackHeld b = false →
    (k.row ≠ none → y.bankQueue pc bank = [] → s.inWindow b pc = false →
      ∃ t, exec (.rowIdlePrecharge b pc bank) s = .next t ∧
        let n := y.preAt k (max y.cycle (k.used + s.obj (0x2100 + b) 3))
        (t.bay b).sched.cycle = n ∧ (t.bay b).sched.bankOf pc bank = { k with row := none, pre := some n } ∧
        (∀ pc' bank', (pc', bank') ≠ (pc, bank) → (t.bay b).sched.bankOf pc' bank' = y.bankOf pc' bank') ∧
        (t.bay b).sched.pcOf pc = { y.pcOf pc with rowAt := some n } ∧
        t = s.modBay b fun z => { z with sched := { z.sched with
          cycle := n, banks := (t.bay b).sched.banks, pcs := (t.bay b).sched.pcs } }) ∧
    (bank < 64 → s.pcInService b pc = true → k.o < 9 →
      ∃ t, exec (.refreshIntervalDue b pc bank) s = .next t ∧
        let next := { k with owed := k.owed + 1, due := some (y.dueAt k + refreshInterval (s.bay b).therm.thermal) }
        let forced := !k.force && decide (s.owedLimit b pc < next.o) && !s.inWindow b pc
        let w := if forced then { next with force := true, counted := y.heldBack next } else next
        (t.bay b).sched.bankOf pc bank =
          { w with at9 := if w.o < 9 then none else some (k.at9.getD (max s.now (y.dueAt k))) } ∧
        (∀ pc' bank', (pc', bank') ≠ (pc, bank) → (t.bay b).sched.bankOf pc' bank' = y.bankOf pc' bank') ∧
        t = { s.modBay b fun z => { z with sched := { z.sched with
                maxOwed := max z.sched.maxOwed w.o.toNat, banks := (t.bay b).sched.banks } } with now := max s.now (y.dueAt k) }) ∧
    (∀ d, (y.pcOf pc).burst = true → (y.pcOf pc).burstOff = some d →
      ∃ t, exec (.burstHoldEnd b pc) s = .next t ∧
        (t.bay b).sched.pcOf pc = { y.pcOf pc with burst := false, burstOff := none } ∧
        t = { s.modBay b fun z => { z with sched := { z.sched with pcs := (t.bay b).sched.pcs } } with now := max s.now d }) ∧
    (∀ d, k.at9 = some d → s.silent = true →
      ∃ t, exec (.refreshLimiter b pc bank) s = .next t ∧
        ((t.bay b).sched.bankOf pc bank).owed = k.owed - 1 ∧ ((t.bay b).sched.bankOf pc bank).row = none ∧
        (∀ pc' bank', (pc', bank') ≠ (pc, bank) → (t.bay b).sched.bankOf pc' bank' = y.bankOf pc' bank') ∧ t.obj (0x2200 + b) 0x27 = s.obj (0x2200 + b) 0x27 + 1 ∧
        t.obj 0x5F10 2 = s.obj 0x5F10 2 + 1 ∧ objsBut s t [(0x2200 + b, 0x27), (0x5F10, 2), (0x2090, 1)] ∧
        t = { s.modBay b fun z => { z with sched := { z.sched with
                banks := (t.bay b).sched.banks, pcs := (t.bay b).sched.pcs } } with
              now := max s.now (d + 975), objs := t.objs, events := t.events }))

/-- Stack and Carrel reads, write-backs, Shelf Reading, a Pigeonhole error and a mirror timeout. A lone one-granule read whose
stack data come in without error, of a granule that is neither marked, written raw nor in a test window with a mask, answers an
RDR with those bytes, counts one decode in its bay's bin, leaves every stack byte as it was and drops no dirty line. The same
for a Carrel read without error within the limit in force, which marks its line used now. A write-back of a dirty line that is
to be evicted, or that the cleaner takes, puts a write of each dirty granule into its bank queue, the cleaner's below the
others; one of a clean line that is to be evicted drops it. A Shelf Reading step of a line of the valid-bit store advances the
bay's pass. A double-bit Pigeonhole error fences the bay of a quiet block for cause 5, and a single-bit one counts in its bin.
An FWR at its mirror timeout answers its write TIMEOUT and is counted, with an event. (Clocks of the timed rows: log 2.) -/
def Obligations.ReadsWritebacksAndScrubbing : Prop :=
  (∀ (s : State) (o : Op) (p : Part) (inner : Bool) (reread : SymErr),
    s.Inv → s.unobserved = true → s.waits = [] → s.ops = [o] → o.kind = .rd → o.msg.hdr.opcode = 0x01 → o.msg.hdr.ord = false →
    o.msg.hdr.len = 0 → o.parts = [p] → p.keep = none → s.inService o.msg.port = true → s.canAnswer o.msg.port 2 = true →
    (p.phase = .stack → carrelHit s.mem p.gran = false → p.gran ∉ s.mem.marked → (∀ e ∈ s.mem.chk, e.1 ≠ p.gran) →
      s.windowErasures p.gran = [] →
      ∃ t, exec (.stackReadComplete o.id 0 [] reread inner) s = .next t ∧
        SentOn s t o.msg.port (rdrOf o.msg) (padTo 64 (stackGranule s.mem p.gran)) ∧
        (let b := (s.gplace p.gran).1
         let i := (s.bay b).therm.band * 4 + s.loadClass b (s.gplace p.gran).2.1
         let bins := (s.bay b).evid.bins
         inner = false → (t.bay b).evid = { (s.bay b).evid with bins := bins.set i ((bins.getD i []).set 0 ((bins.getD i []).getD 0 0 + 1)) }) ∧
        (∀ l c, carrelLine s.mem l = some c → c.dirty ≠ 0 → l ≠ p.gran / 2 →
          ∃ e, carrelLine t.mem l = some { c with evict := e }) ∧
        t = { s with free := t.free, wire := t.wire, ports := t.ports, ops := [], mem := { s.mem with carrel := t.mem.carrel }
                     bays := t.bays, frank := t.frank }) ∧
    (∀ c, p.phase = .carrel → carrelLine s.mem (p.gran / 2) = some c → c.gvalid.getLsbD (p.gran % 2) = true →
      s.carrelMay p.bay (clsOf o.msg == 0) = true →
      ∃ t, exec (.carrelReadComplete o.id 0 []) s = .next t ∧
        SentOn s t o.msg.port (rdrOf o.msg) (padTo 64 (lineHalf c p.gran)) ∧
        CarrelServed s t ∧ (∀ b, (t.bay b).sched = (s.bay b).sched) ∧
        t = { s with wire := t.wire, ports := t.ports, ops := [], mem := touchLine s.mem (p.gran / 2) s.now, bays := t.bays
                     frank := t.frank })) ∧
  (∀ (s : State) (c : CLine) (bank row : Nat) (evict : Bool),
    let b := (s.gplace (2 * c.line)).1
    let pc := (s.gplace (2 * c.line)).2.1
    let y := (s.bay b).sched
    s.Inv → b < s.size.bays → s.setCounters = [] → carrelLine s.mem c.line = some c → bank < 64 →
    (c.dirty = 0 → ∃ t, exec (.carrelWriteback c.line bank row evict) s = .next t ∧
      t = if c.evict then { s with mem := dropLine s.mem c.line } else s) ∧
    (c.dirty ≠ 0 → c.evict = true ∨ (evict = false ∧ s.cleanerTakes b c = true) → (∀ q ∈ y.queue, ¬ (q.write = true ∧ q.op = c.line)) → (y.bankQueue pc bank).length ≤ 6 →
      ∃ t, exec (.carrelWriteback c.line bank row evict) s = .next t ∧
        (t.bay b).sched.queue = y.queue ++ (([0, 1].filter fun h => c.dirty.getLsbD h).map fun h =>
          ({ op := c.line, part := h, pc := pc, bank := bank, row := row, write := true, cls := c.cls
             prio := s.staticPrio c.cls, cleaner := !c.evict, at_ := s.now } : BankReq)) ∧
        (∀ d, d ≠ b → t.bay d = s.bay d) ∧ t = { s with bays := t.bays })) ∧
  (∀ (s : State) (b line : Nat) (err reread : SymErr) (inner : Bool),
    let pc := s.storePc b line
    s.Inv → b < s.size.bays → s.setCounters = [] → (s.bay b).repair.state = 4 → s.inPass b (.store line) = true →
    (s.bay b).evid.passRead = [] → s.stackHeld b = false → s.inWindow b pc = false → (∀ q ∈ (s.bay b).sched.queue, q.pc ≠ pc) →
    ((s.lanes b pc).erased.map posOf = []) → err = [] → 1 < s.passTotal b →
    ∃ t, exec (.shelfReadingStep b (.store line) err reread inner) s = .next t ∧
      (t.bay b).evid.passRead = [.store line] ∧ ((t.bay b).sched.pcOf pc).taken = true ∧ (∀ d, d ≠ b → t.bay d = s.bay d) ∧
      t = { s with now := max s.now (s.passDue b), bays := t.bays }) ∧
  (∀ (s : State) (b : Nat), s.Inv → b < s.size.bays →
    (s.idle = true → s.fenced b = false → ∃ t, exec (.pigeonholeEccError b true) s = .next t ∧
      Leaves s t (s.fencedNow b 5) [s.oneEvent]) ∧
    (let i := (s.bay b).therm.band * 4 + s.loadClass b 0
     let bins := (s.bay b).evid.bins
     ∃ t, exec (.pigeonholeEccError b false) s = .next t ∧
      t = s.modBay b fun y => { y with evid := { y.evid with
        bins := bins.set i ((bins.getD i []).set 5 ((bins.getD i []).getD 5 0 + 1)) } })) ∧
  (∀ (s : State) (p : Partner) (x : SentFwr) (o : Op),
    s.unobserved = true → s.silent = true → s.partner p.block = p → (p.unanswered.find? fun y => y.tag == x.tag) = some x →
    x.op = some o.id → s.ops = [o] → s.waits = [] → o.kind = .wr → o.msg.hdr.ord = false → s.inService o.msg.port = true →
    s.canAnswer o.msg.port 1 = true →
    ∃ t, exec (.mirrorTimeout p.block x.tag) s = .next t ∧ SentOn s t o.msg.port (answerHdr o.msg 0x22 stTimeout) [] ∧
      t.partner p.block = { p with unanswered := p.unanswered.filter fun y => y.tag != x.tag, needSync := p.needSync || x.sent } ∧
      (∀ b, b ≠ p.block → t.partner b = s.partner b) ∧
      t.obj 0x2050 2 = s.obj 0x2050 2 + 1 ∧ t.obj 0x2050 3 = s.blockNo * 2 ^ 42 + hallOffset x.hdr.addr.toNat ∧
      objsBut s t [(0x2050, 2), (0x2050, 3), (0x2090, 1)] ∧ t.events.next = s.events.next + 1 ∧
      t = { s with now := max s.now x.deadline, wire := t.wire, ports := t.ports, ops := [], partners := t.partners, objs := t.objs
                   events := t.events })

/-- RESERVATION_CONFIRM, RETRIEVAL_CONTRIBUTION, STREAM_TILE_READ and CONSIGNMENT_COMPLETE. A bay that cannot reserve ends the
admission RETRY. One that confirms, with others awaited, is noted as reserved. The last confirmation of a STREAM admission
without Tallies or weights makes the consignment active and answers CMP OK with CID and CGEN; that of a COLLATE one with a
window of 1 and one home bay also opens the bay's lowest tile. A Retrieval read without stack errors joins the open tile as a
contribution, is counted and staged. The next tile of an unmetered STREAM consignment within its window is read and completes OK
with its bytes, a copy waiting for each destination. A consignment with nothing left frees its CID: its outcome and count are
kept, its meters and leases go, a RELEASE that waits is answered with the outcome, and CTALLY without waiters gets 1 and the
outcome. -/
def Obligations.ReservationsReadsAndTheEndOfAConsignment : Prop :=
  (∀ (s : State) (c : Con) (b : Nat), s.unobserved = true → s.con c.cid = some c → c.state = .admitting → b ∈ c.await →
    c.msg.hdr.ord = false → s.inService c.msg.port = true → s.canAnswer c.msg.port 1 = true →
    (∀ ok, ok = false ∨ s.canReserve c b = false →
      ∃ t, exec (.reservationConfirm c.cid b ok) s = .next t ∧ SentOn s t c.msg.port (answerHdr c.msg 0x22 stRetry) [] ∧
        t = { s with wire := t.wire, ports := t.ports, cons := s.cons.filter fun x => x.cid != c.cid }) ∧
    (s.canReserve c b = true → (∃ d ∈ c.await, d ≠ b) →
      exec (.reservationConfirm c.cid b true) s = .next (s.modCon c.cid fun x =>
        { x with await := x.await.filter (· != b), reserved := x.reserved ++ [b] })) ∧
    (s.canReserve c b = true → c.await = [b] → c.slip.ctally = none → c.slip.ttally = none → c.slip.postmark = none →
      (c.slip.kind = 1 → c.slip.window = 1 ∧ c.reserved = [] ∧ c.weightBad = false ∧ (s.nextTile c b).isSome = true) →
      ∃ t, exec (.reservationConfirm c.cid b true) s = .next t ∧
        SentOn s t c.msg.port { answerHdr c.msg 0x22 stOk with cid := BitVec.ofNat 12 c.cid, cgen := c.cgen } [] ∧
        t.con c.cid = some { c with
          state := .active, await := [], reserved := c.reserved ++ [b], admNo := s.day.admissions + 1
          tiles := if c.slip.kind = 1 then c.tiles ++ [{ idx := (s.nextTile c b).getD 0, bay := b, openedAt := s.now
                                                         acc := c.slip.freshAcc }] else c.tiles } ∧
        (∀ k, k ≠ c.cid → t.con k = s.con k) ∧
        t = { s with wire := t.wire, ports := t.ports, cons := t.cons, day := { s.day with admissions := s.day.admissions + 1 } })) ∧
  (∀ (s : State) (c : Con) (i : Nat) (z : Tile), s.unobserved = true → s.ops = [] → s.con c.cid = some c → c.tile? i = some z →
    c.slip.kind = 1 → c.slip.retrieval.isSome = true → c.slip.postmark = none → z.phase = .open_ → z.retrieved = false →
    s.obj 0x2E00 0x0E ≠ 2 → s.check75 (c.slip.srcAddr i) c.slip.tileBytes c.readAccess = stOk →
    s.spanAtHand (c.slip.srcAddr i) c.slip.tileBytes = true → z.count + 1 ≠ c.slip.count → z.staged.length + 1 < s.obj 0x2070 2 →
    ∃ t, exec (.retrievalContribution c.cid i []) s = .next t ∧
      TileNow s t c i { z with
        retrieved := true, count := z.count + 1, hashSum := 0
        staged := z.staged ++ [{ data := s.spanBytes (c.slip.srcAddr i) c.slip.tileBytes, src := 0xFFFFF }]
        stagedAt := if z.staged = [] then s.now else z.stagedAt } c.outcome ∧
      t = { s with cons := t.cons }) ∧
  (∀ (s : State) (c : Con),
    let i := c.streamNext
    let a := c.slip.srcAddr i
    let n := c.slip.tileBytes
    s.unobserved = true → s.con c.cid = some c → c.slip.kind = 2 → c.state = .active → i < c.slip.ntiles →
    (c.tiles.filter fun z => !z.left).length < c.slip.window → s.pausing = false → s.gateOpen (clsOf c.msg) = true →
    c.slip.crate = 0 → s.unmetered (.cls (clsOf c.msg)) = true → s.check75 a n c.readAccess = stOk → s.spanAtHand a n = true →
    c.begun i = false → c.slip.postmark = none → c.slip.dests ≠ [] →
    ∃ t d, exec (.streamTileRead c.cid []) s = .next t ∧ t.con c.cid = some d ∧
      d = { c with streamNext := i + 1, outcome := firstStatus c.outcome stOk, tiles := c.tiles ++ [{
              idx := i, bay := (s.place (hallOffset a)).1, openedAt := s.now, phase := .posted, out := s.spanBytes a n
              doneAt := s.now, copies := c.slip.dests.map fun _ => .waiting, slot := false }] } ∧
      (∀ k, k ≠ c.cid → t.con k = s.con k) ∧
      t.obj (0x2600 + clsOf c.msg) 0x10 = s.obj (0x2600 + clsOf c.msg) 0x10 + n ∧ objsBut s t [(0x2600 + clsOf c.msg, 0x10)] ∧
      t = { s with cons := t.cons, objs := t.objs }) ∧
  (∀ (s : State) (c : Con), s.unobserved = true → s.con c.cid = some c → c.state ≠ .admitting → s.conOver c = true →
    c.slip.ttally = none →
    let freed (t : State) : Prop :=
      t.cons = s.cons.filter (fun x => x.cid != c.cid) ∧
      t.past = (s.past.filter fun x => x.cid != c.cid) ++
        [{ cid := c.cid, cgen := c.cgen, outcome := c.outcome, kind := c.slip.kind, done := c.doneCount }] ∧
      t.frank = { s.frank with meters := s.frank.meters.filter (fun m => m.key != .con c.cid)
                               leases := s.frank.leases.filter (fun l => l.key != .con c.cid) }
    (c.slip.ctally = none → c.release = none → ∃ t, exec (.consignmentComplete c.cid) s = .next t ∧ freed t ∧
      t = { s with cons := t.cons, past := t.past, frank := t.frank }) ∧
    (∀ a, c.slip.ctally = none → c.release = some a → a.hdr.ord = false → s.inService a.port = true → s.canAnswer a.port 1 = true →
      ∃ t, exec (.consignmentComplete c.cid) s = .next t ∧ freed t ∧ SentOn s t a.port (answerHdr a 0x22 c.outcome) [] ∧
        Leaves s t { s with wire := t.wire, ports := t.ports, cons := t.cons, past := t.past, frank := t.frank }
          [(0x2050, 5, s.obj 0x2050 5 + if c.outcome = stFenced then 1 else 0),
           (0x2C00, 6, s.obj 0x2C00 6 + if c.outcome = stUncorr then 1 else 0)]) ∧
    (∀ n, c.slip.ctally = some n → c.ctBound = true → c.release = none → s.tallyWaiters n = [] → (s.tally n).use_ = 2 →
      (s.tally n).wrap = false → (s.tally n).value.toNat + 1 ≤ (s.tally n).limit.toNat →
      ∃ t, exec (.consignmentComplete c.cid) s = .next t ∧ freed t ∧
        (∀ m, m ≠ n → t.tally m = s.tally m) ∧
        t.tally n = { s.tally n with
          value := (s.tally n).value + 1, outcome := firstStatus (s.tally n).outcome c.outcome
          bound := (s.cons.filter (fun x => x.cid != c.cid)).any fun x => x.state != .admitting &&
            ((x.slip.ctally == some n && x.ctBound) || (x.slip.ttally == some n && x.ttBound)) } ∧
        t = { s with cons := t.cons, past := t.past, frank := t.frank, tal := { s.tal with tallies := t.tal.tallies } }))

/-- COALESCING_WINDOW, BATCH_APPLY, TILE_TIMEOUT, POSTMARK_DIGEST, DISPATCH_COPY and DISPATCH_TIMEOUT. After the window the
staged contributions of an open tile become a batch. A lane in service applies the oldest batch, within the governor's limit;
one whose check fails leaves service and the batch stays, with a spare lane left this is counted at 0x2070:05. An open tile that
has waited CTIMEOUT completes SHORT, counted at 0x2060:06. The digest of a completed tile whose write R75 refuses ends FENCED in
the outcome, and the copies may leave. A RESULT leaves its port with the header of R46 and the tile's bytes when credits cover
it and no earlier copy holds it back; a PUSH carries the block's number and a fresh tag; in shadow mode a PUSH is only counted.
The last copy of a one-copy COLLATE tile frees the slot: the record closes and the bay's next tile opens. A copy that has not
left within CTIMEOUT is dropped with its PUSH that waits, counted at 0x2060:07, and the outcome becomes at least TIMEOUT.
(Clocks of timed rows: log 2.) -/
def Obligations.BatchesTimeoutsAndCopiesOfTiles : Prop :=
  (∀ (s : State) (c : Con) (i : Nat) (z : Tile), s.con c.cid = some c → c.tile? i = some z → (∀ e ∈ c.closed, e.1 ≠ i) → s.unobserved = true →
    s.ops = [] →
    (z.phase = .open_ → z.staged ≠ [] →
      ∃ t, exec (.coalescingWindow c.cid i) s = .next t ∧
        TileNow s t c i { z with batches := z.batches ++ [z.staged], staged := [] } c.outcome ∧
        t = { s with now := max s.now (z.stagedAt + ceilDiv (s.obj 0x2070 1 * 2) 3), cons := t.cons }) ∧
    (∀ (lane : Nat) (b : List Staged) (rest : List (List Staged)), z.phase = .open_ → z.batches = b :: rest → s.fenced z.bay = false →
      (s.bay z.bay).repair.lanes.getLsbD lane = true → s.collMay z.bay = true →
      (∃ t, exec (.batchApply c.cid i lane true none) s = .next t ∧
        TileNow s t c i { z with
          batches := rest, acc := (applyAll c.slip z.acc b).1, applied := true, accBad := nub z.accBad
          flags := z.flags ||| (applyAll c.slip z.acc b).2 } c.outcome ∧
        t = { s.modBay z.bay fun y => { y with power := { y.power with collUsed := (t.bay z.bay).power.collUsed } } with cons := t.cons }) ∧
      (s.Inv → z.bay < s.size.bays → (s.bay z.bay).repair.lanes = 0x1F → s.determinism = false →
        exec (.batchApply c.cid i lane false none) s = .next ((s.modBay z.bay fun y =>
          { y with repair := { y.repair with lanes := y.repair.lanes &&& ~~~BitVec.ofNat 5 (2 ^ lane) } }).sets
            [(0x2070, 5, s.obj 0x2070 5 + 1)]))) ∧
    (c.slip.kind = 1 → z.phase = .open_ → s.obj 0x2E00 0x0E ≠ 2 → z.replayWait = [] → c.slip.dests ≠ [] →
      let n := max s.now (z.openedAt + c.ctns)
      ∃ t, exec (.tileTimeout c.cid i) s = .next t ∧
        TileNow s t c i { z with
          phase := .posted, status := stShort, flags := z.flags ||| flShort, doneAt := n, copies := c.slip.dests.map fun _ => .waiting
          staged := [], batches := [], acc := [], accBad := [], digest := 0, replayWait := [], out := [] }
          (firstStatus c.outcome stShort) ∧
        Leaves s t { s with now := n, cons := t.cons } [(0x2060, 6, s.obj 0x2060 6 + 1),
          (0x2070, 3, s.obj 0x2070 3 + b2n (z.flags.getLsbD 1)), (0x2070, 4, s.obj 0x2070 4 + b2n (z.flags.getLsbD 0))]) ∧
    (∀ base ws, c.slip.postmark = some (base, ws) → z.phase = .posted → z.digest = 1 → s.waits = [] → .waiting ∈ z.copies →
      s.shelf.commit = none →
      (let a : Arrival := { port := 2 * z.bay, data := tileDigest c z, hdr := {
        tclass := c.msg.hdr.tclass, domain := c.msg.hdr.domain, addr := BitVec.ofNat 54 (base + 32 * i), len := 0 } }
       misaligned a = false ∧ s.check75 a.hdr.addr.toNat 32 { domain := a.hdr.domain.toNat, tclass := clsOf a, write := true } ≠ stOk) →
      ∃ t, exec (.postmarkDigest c.cid i) s = .next t ∧
        TileNow s t c i { z with digest := 3 } (firstStatus c.outcome stFenced) ∧
        t = { s with cons := t.cons, nextId := t.nextId }) ∧
    (∀ (k : Nat) (d : Dest) (p : Nat), z.phase = .posted → z.digest = 0 ∨ z.digest = 3 → c.slip.dests[k]? = some d →
      z.copies[k]? = some .waiting → s.pairPort d.port = some p → z.status ≠ stShort → z.status ≠ stFenced →
      let data := padTo (ceilDiv z.out.length 64 * 64) z.out
      let q := s.port p
      let vc := if d.push then 2 else 3
      let tag := s.freeTag 65536 ((Config.freeValue s.free).setWidth 16)
      let h : Hdr := if d.push then {
          opcode := 0x42, mclass := 2, tclass := c.msg.hdr.tclass, domain := c.msg.hdr.domain, len := BitVec.ofNat 12 (z.out.length / 32 - 1)
          srcid := BitVec.ofNat 20 s.blockNo, cid := d.pcid, cgen := d.pcgen, tag := tag, w3 := 0#60 ++ z.flags
          w4 := BitVec.ofNat 64 ((z.idx + d.tileofs) % 2 ^ 32) }
        else {
          opcode := 0x62, mclass := 3, tclass := c.msg.hdr.tclass, domain := c.msg.hdr.domain, len := BitVec.ofNat 12 (z.out.length / 32 - 1)
          status := z.status, srcid := d.dstid, cid := BitVec.ofNat 12 c.cid, cgen := c.cgen
          addr := BitVec.ofNat 54 (d.daddr + z.idx * c.slip.outBytes), tag := BitVec.ofNat 16 z.idx, w3 := 0#60 ++ z.flags
          w4 := BitVec.ofNat 64 z.idx }
      let left (t : State) : Prop :=
        t.wire = Wire.msg p (hdrSeal h) data :: s.wire ∧
        t.ports = (s.setPort p (q.setCredits s.now vc (q.credits.getD vc 0 - flitsOf data))).ports ∧
        t = { s with wire := t.wire, ports := t.ports, cons := t.cons, free := s.free + 1 }
      (∀ m ∈ q.outq, m.hdr.mclass.toNat ≠ vc) → flitsOf data ≤ q.credits.getD vc 0 → s.copyBehind c z k p d = false → (d.push = true → s.obj 0x2D00 0x13 ≠ 1) →
      ((∃ j, j ≠ k ∧ z.copies[j]? = some .waiting) →
        ∃ t, exec (.dispatchCopy c.cid i k) s = .next t ∧ left t ∧
          TileNow s t c i { z with copies := z.copies.set k (if d.push then .pushed tag (d.daddr / 2 ^ 42) else .sent) } c.outcome) ∧
      (∀ n, d.push = false → z.copies = [.waiting] → z.left = false → z.slot = true → c.slip.kind = 1 → c.state = .active →
        c.weightBad = false → c.slip.ttally = none → s.nextTile c z.bay = some n →
        ∃ t e, exec (.dispatchCopy c.cid i k) s = .next t ∧ left t ∧ t.con c.cid = some e ∧
          e = { c with tiles := e.tiles, closed := c.closed ++ [(i, z.status)] } ∧ e.tile? i = none ∧
          e.tile? n = some { idx := n, bay := z.bay, openedAt := s.now, acc := c.slip.freshAcc } ∧
          (∀ j, j ≠ i → j ≠ n → e.tile? j = c.tile? j) ∧ ∀ j, j ≠ c.cid → t.con j = s.con j)) ∧
    (∀ (k : Nat) (d : Dest), z.phase = .posted → z.digest = 0 ∨ z.digest = 3 → c.slip.dests[k]? = some d → d.push = true →
      z.copies[k]? = some .waiting → s.obj 0x2D00 0x13 = 1 → (∃ j, j ≠ k ∧ z.copies[j]? = some .waiting) →
      ∃ t, exec (.dispatchCopy c.cid i k) s = .next t ∧ TileNow s t c i { z with copies := z.copies.set k .sent } c.outcome ∧
        Leaves s t { s with cons := t.cons } [(0x2D00, 0x14, s.obj 0x2D00 0x14 + 1)]) ∧
    (∀ (k : Nat) (x : CopySt), z.phase = .posted → z.copies[k]? = some x → x.over = false → (∃ j, j ≠ k ∧ z.copies[j]? = some .waiting) →
      ∃ t, exec (.dispatchTimeout c.cid i k) s = .next t ∧
        TileNow s t c i { z with copies := z.copies.set k .dropped } (firstStatus c.outcome stTimeout) ∧
        let ports := match x with
          | .pushed g _ => s.ports.map fun q => { q with outq := q.outq.filter fun m => !(m.hdr.opcode = 0x42 && m.hdr.tag == g) }
          | _ => s.ports
        Leaves s t { s with now := max s.now (z.doneAt + c.ctns), cons := t.cons, ports := ports } [(0x2060, 7, s.obj 0x2060 7 + 1)]))

/-- SORTING_FRAME_SLOT, LEASE_RETURN, GATE_CHANGE, TIMETABLE_TAKE_EFFECT and TOD_LOCK_CHANGE. An idle wheel has no slot to
serve. A slot whose only meter is that of the class of the one held full FENCE, with tokens for a green lease, leases the larger
of the lease size and 64 bytes from both buckets, counted at 0x2080:08; the FENCE passes green, is answered OK, and the meter
leaves the wheel. An unused lease of a class returns its tokens, capped by the burst sizes, 1 us after its last use. A running
Timetable in its first of two entries opens the gates of the second at its start. A committed list takes effect at the start of
the cycle that was computed for it, with its own base time: the first entry's gates hold if the Timetable is enabled, else all
are open. The time of day that unlocks goes to holdover; one that locks gives the network time, with an empty Timetable's gates
open. (Clocks of timed rows: log 2.) -/
def Obligations.MetersGatesAndTimeOfDay : Prop :=
  (∀ s : State, (∀ m ∈ s.frank.meters, m.slot = none) → exec .sortingFrameSlot s = .next s) ∧
  (∀ (s : State) (o : Op) (m : Meter) (d : Nat),
    let c := clsOf o.msg
    let u := s.when d
    let q := max (s.obj 0x2080 1 * 1024) 64
    s.unobserved = true → s.frank.meters = [m] → m.key = .cls c → m.slot = some d → s.frank.leases = [] → s.ops = [o] → s.waits = [] →
    s.seqs = [] → o.kind = .fence 0 → o.stage = .franking → o.inPool = false → o.id < s.nextId → o.msg.hdr.opcode = 0x0C →
    o.msg.hdr.csg = false → o.msg.hdr.ord = false → o.msg.fkind = 0 → s.gateOpen c = true → s.unmetered (.cls c) = false →
    s.drops (.cls c) = false → 0 ≤ (u.meter (.cls c)).tp → ((q * 1000 : Nat) : Int) ≤ (u.meter (.cls c)).tc →
    s.inService o.msg.port = true → s.canAnswer o.msg.port 1 = true →
    ∃ t, exec .sortingFrameSlot s = .next t ∧ SentOn s t o.msg.port (answerHdr o.msg 0x22 stOk) [] ∧
      (t.meter (.cls c)).tc = (u.meter (.cls c)).tc - ((q * 1000 : Nat) : Int) ∧
      (t.meter (.cls c)).tp = (u.meter (.cls c)).tp - ((q * 1000 : Nat) : Int) ∧
      (∀ x ∈ t.frank.meters, x.slot = none) ∧ (t.lease (o.msg.port / 2) (.cls c)).green = q - 64 ∧
      (t.lease (o.msg.port / 2) (.cls c)).yellow = 0 ∧
      Leaves s t { u with wire := t.wire, ports := t.ports, ops := [], frank := { s.frank with
          meters := t.frank.meters, leases := t.frank.leases } }
        [(0x2600 + c, 0x10, s.obj (0x2600 + c) 0x10 + 64), (0x2080, 8, s.obj 0x2080 8 + 1)]) ∧
  (∀ (s : State) (b c : Nat) (l : Lease),
    let u := s.when (l.used + 1000)
    let r := s.meterRates (.cls c)
    s.setCounters = [] → s.frank.leases = [l] → l.key = .cls c → l.bay = b →
    ∃ t, exec (.leaseReturn b c) s = .next t ∧
      (t.meter (.cls c)).tc = min (r.2.1 : Int) ((u.meter (.cls c)).tc + ((l.green * 1000 : Nat) : Int)) ∧
      (t.meter (.cls c)).tp = min (r.2.2.2 : Int) ((u.meter (.cls c)).tp + (((l.green + l.yellow) * 1000 : Nat) : Int)) ∧
      t = { u with frank := { s.frank with meters := t.frank.meters, leases := [] } }) ∧
  (∀ (s : State) (g0 g1 : W64) (d0 d1 n x : Nat),
    let at_ := s.table.operBase + n * s.table.operCycle + d0
    s.unobserved = true → s.ops = [] → s.obj 0x2700 1 = 1 → s.tod.state ≠ 0 → s.table.oper = [(g0, d0), (g1, d1)] →
    0 < d0 → d0 < s.table.operCycle → x < d0 → s.table.changed = s.table.operBase + n * s.table.operCycle + x →
    exec .gateChange s = .next { s.when ((at_ : Int) - s.tod.offset).toNat with table := { s.table with gates := g1, changed := at_ } }) ∧
  (∀ (s : State) (base cycle n d : Nat) (g : W64) (rest : List (W64 × Nat)),
    let u := s.when ((s.table.effect : Int) - s.tod.offset).toNat
    s.unobserved = true → s.ops = [] → s.tod.state ≠ 0 → s.table.waiting = some (base, cycle, (g, d) :: rest) → 0 < d → 0 < cycle →
    u.netTime = s.table.effect → s.table.effect = base + n * cycle →
    exec .timetableTakeEffect s = .next { u with table := { s.table with
      oper := (g, d) :: rest, operBase := base, operCycle := cycle, waiting := none, changed := s.table.effect
      gates := if s.obj 0x2700 1 = 1 then g else BitVec.allOnes 64 } }) ∧
  (∀ (s : State) (net : Nat), s.unobserved = true → s.ops = [] →
    (s.tod.state = 1 → exec (.todLockChange false net) s = .next { s with tod := { s.tod with state := 2 } }) ∧
    (s.table.oper = [] → s.table.waiting = none → (∀ e ∈ s.tal.tallies, e.2.armed = false) →
      exec (.todLockChange true net) s = .next { s with
        tod := { state := 1, offset := (net : Int) - s.now }
        table := { s.table with gates := BitVec.allOnes 64, changed := net } }))

/-- COMMIT_KEY_EXPIRY, COMMIT_DRAIN_END, COMMIT_DRAIN_TIMEOUT and MOVE_UNIT_COPY. A commit without both keys ends 5 s after its
validation with status 6 and reason 12; one that has not drained within 0x2400:0E ends with reason 13; in both the key is
invalid and no entry changes. A drained commit of one group of one segment in a quiet block takes effect at once: the entry
holds the staged words under the next serial, every other entry is as it was, status is 5 and reason 0, and a group that was
absent starts with every valid bit clear. A moving group's next unit, with none of its granules marked, raw or read
uncorrectable, is copied by advancing WATERMARK by the unit; no byte that a client reads changes. (Clocks of timed rows: log 2.)
-/
def Obligations.CommitEndsAndMoveUnits : Prop :=
  (∀ (s : State) (c : Commit), s.setCounters = [] → s.ops = [] → s.shelf.commit = some c →
    let ended (t : State) (now reason : Nat) : Prop :=
      Leaves s t { s with now := now, shelf := { s.shelf with commit := none } } [(0x2400, 3, 6), (0x2400, 5, reason), (0x2400, 6, 0)]
    (c.drain = none → ∃ t, exec .commitKeyExpiry s = .next t ∧ ended t (max s.now (c.validAt + 5000000000)) 12)) ∧
  (∀ (s : State) (c : Commit) (since : Nat) (o : Op) (ids : List Nat), s.setCounters = [] → s.shelf.commit = some c →
    c.drain = some (since, ids) → s.ops = [o] → o.id ∈ ids → o.stage = .bay →
    ∃ t, exec .commitDrainTimeout s = .next t ∧
      Leaves s t { s with now := max s.now (since + s.obj 0x2400 0x0E * 1000), shelf := { s.shelf with commit := none } }
        [(0x2400, 3, 6), (0x2400, 5, 13), (0x2400, 6, 0)]) ∧
  (∀ (s : State) (c : Commit) (since : Nat) (ids : List Nat) (i : Nat) (e : Entry),
    let n := (s.obj 0x2400 9 + 1) % 2 ^ 32
    s.ops = [] → s.shelf.commit = some c → c.drain = some (since, ids) → c.changes = [(i, e)] → s.determinism = false →
    s.guarSum = 0 → s.frank.gforce = [] → (∀ y ∈ s.bays, y.repair.withdrawing = 0) → popcount 24 e.bayset = 1 →
    (s.entry i).state = 0 → e.state = 1 →
    ∃ t, exec .commitDrainEnd s = .next t ∧
      t.entry i = { e with e3 := BitVec.ofNat 64 (n * 2 ^ 32) } ∧ (∀ j, j ≠ i → t.entry j = s.entry j) ∧
      (∀ b, t.validBit b = (s.validBit b && decide (b / 4096 ≠ i))) ∧
      Leaves s t { s with shelf := { s.shelf with entries := t.shelf.entries, commit := none, valid := t.shelf.valid
                                                  badLines := t.shelf.badLines, isleCache := t.shelf.isleCache } }
        [(0x2400, 3, 5), (0x2400, 5, 0), (0x2400, 9, n)]) ∧
  (∀ (s : State) (i : Nat),
    let e := s.entry i
    let unit := s.moveUnit i e.watermark
    let g0 := (i * 2 ^ 24 + e.watermark) / 32
    e.state = 3 → popcount 24 e.bayset = 1 → s.mayMove i = true → 256 ∣ unit → e.watermark + unit < (s.layout i).cap → e.watermark + unit < 2 ^ 24 →
    (∀ g ∈ s.mem.marked, g < g0 ∨ g0 + unit / 32 ≤ g) → (∀ x ∈ s.mem.chk, x.1 < g0 ∨ g0 + unit / 32 ≤ x.1) →
    ∃ t, exec (.moveUnitCopy i []) s = .next t ∧ (t.entry i).watermark = e.watermark + unit ∧
      t.entry i = { e with e6 := (t.entry i).e6 } ∧ (∀ j, j ≠ i → t.entry j = s.entry j) ∧ (∀ off, t.byteAt off = s.byteAt off) ∧
      t = { s with shelf := { s.shelf with entries := t.shelf.entries }, bays := t.bays } ∧
      (∀ b, t.bay b = { s.bay b with evid := (t.bay b).evid }))

/-- WAITER_TIMEOUT, BARRIER_ANSWER_HANDOVER and ARMED_RELEASE. A waiter whose deadline comes is answered TIMEOUT and leaves the
list, and no Tally changes. In one cycle one answer of a releasing barrier generation leaves, OK; the last one drains it: the
generation advances, the early arrivals become its count, and the release is over unless they reach the limit. An armed Tally
without waiters gets 1 when its instant comes and is armed no more, if network time is locked and the block neither pauses nor
is paused; while it pauses or is paused the release waits and is marked late; without a time of day nothing happens. (The clocks
of these rows are the model's reading, log 2.) -/
def Obligations.WaitersBarriersAndArmedTalliesInTime : Prop :=
  (∀ (s : State) (w : Waiter), s.unobserved = true → w.what ≠ .handover →
    (s.tal.waiters.find? fun x => x.id == w.id && x.what != .handover) = some w → w.msg.hdr.ord = false →
    s.inService w.msg.port = true → s.canAnswer w.msg.port 1 = true →
    ∃ t, exec (.waiterTimeout w.id) s = .next t ∧ SentOn s t w.msg.port (answerHdr w.msg 0x22 stTimeout) [] ∧
      t = { s with now := max s.now w.deadline, wire := t.wire, ports := t.ports
                   tal := { s.tal with waiters := s.tal.waiters.filter fun x => x.id != w.id } }) ∧
  (∀ (s : State) (n : Nat) (w : Waiter), s.unobserved = true → (s.tally n).use_ = 1 → (s.tally n).releasing = true →
    w.tally = n → w.what = .handover → w.msg.hdr.ord = false → s.inService w.msg.port = true → s.canAnswer w.msg.port 1 = true →
    (∀ ws, s.tal.waiters = w :: ws → (∃ x ∈ ws, x.tally = n ∧ x.what = .handover ∧ x.id ≠ w.id) →
      ∃ t, exec (.barrierAnswerHandover n) s = .next t ∧ SentOn s t w.msg.port (answerHdr w.msg 0x22 stOk) [] ∧
        t = { s with now := s.now + 1, wire := t.wire, ports := t.ports
                     tal := { s.tal with waiters := s.tal.waiters.filter fun x => x.id != w.id } }) ∧
    (s.tal.waiters = [w] → (s.tally n).shadow ≠ (s.tally n).limit →
      ∃ t, exec (.barrierAnswerHandover n) s = .next t ∧ SentOn s t w.msg.port (answerHdr w.msg 0x22 stOk) [] ∧
        t.tally n = { s.tally n with gen := (s.tally n).gen + 1, value := (s.tally n).shadow, shadow := 0, releasing := false } ∧
        (∀ m, m ≠ n → t.tally m = s.tally m) ∧
        t = { s with now := s.now + 1, wire := t.wire, ports := t.ports, tal := { s.tal with tallies := t.tal.tallies, waiters := [] } })) ∧
  (∀ (s : State) (n at_ : Nat),
    let u := s.when ((at_ : Int) - s.tod.offset).toNat
    s.unobserved = true → (s.tally n).armed = true → (s.tally n).armAt = some at_ →
    (s.tod.state = 0 → exec (.armedRelease n) s = .next s) ∧
    (s.tod.state = 1 → s.pausing = false → s.tallyWaiters n = [] → (s.tally n).use_ ≠ 1 → (s.tally n).late = false →
      (s.tally n).wrap = true ∨ (s.tally n).value.toNat + 1 ≤ (s.tally n).limit.toNat →
      ∃ t, exec (.armedRelease n) s = .next t ∧
        t.tally n = { s.tally n with value := (s.tally n).value + 1, armed := false, armAt := none } ∧
        (∀ m, m ≠ n → t.tally m = s.tally m) ∧ t = { u with tal := { s.tal with tallies := t.tal.tallies } }) ∧
    (s.tod.state ≠ 0 → s.pausing = true →
      ∃ t, exec (.armedRelease n) s = .next t ∧ t.tally n = { s.tally n with late := true } ∧
        (∀ m, m ≠ n → t.tally m = s.tally m) ∧ t = { u with tal := { s.tal with tallies := t.tal.tallies } }))

/-- Twin errors and rejoin, Tube links, crossing parity and the governor's windows. A checker error of one of two compared twins
leaves the other alone, counted and reported; of the lone twin it stops a quiet block; of a rejoining twin it ends the rejoin. A
mismatch holds the outputs that follow; agreement on re-execution is counted and a held answer leaves, disagreement stops a
quiet block. Each rejoin step leads to the next, the third to compared twins. A failing link or hub marks its links, each with
its event, and is counted once. A crossing parity error is counted and fences the bay of a quiet block, fails the link, or is
the twin's error. The governor's caps hold at every bay, in thousandths: a window whose full demand fits the envelope lifts
them, one that does not lowers the Carrel's cap first, to what the rest leaves; the Clerk may hold either lower, which the spec
leaves open (a free value, log 45); a window more than 5% above the envelope engages every bay's limiter at 25% of both and Hard
Limit 1. -/
def Obligations.TwinsTubeAndGovernor : Prop :=
  (∀ (s : State) (n : Nat),
    (s.silent = true → s.determinism = false → s.twins.state = 0 → s.twins.held = [] →
      ∃ t, exec (.twinCheckerError n) s = .next t ∧
        Leaves s t (({ s with twins := { s.twins with state := 2 - n % 2, disputed := false, rejoin := 0 } } : State).raised 0x50 0xFF
          (1 - n % 2)) [(0x2030, 2, s.obj 0x2030 2 + 1), s.oneEvent]) ∧
    (s.idle = true → s.boot.code ≠ 0x31 → s.twins.state = n % 2 + 1 →
      ∃ t, exec (.twinCheckerError n) s = .next t ∧ Leaves s t s.stoppedNow [s.oneEvent]) ∧
    (s.twins.state = 2 - n % 2 → s.twins.rejoin ≠ 0 →
      exec (.twinCheckerError n) s = .next { s with twins := s.twins.rejoinFailed }) ∧
    (s.twins.state = 3 → exec (.twinCheckerError n) s = .next s)) ∧
  (∀ s : State,
    (s.twins.state = 0 → exec .twinMismatch s = .next { s with twins := { s.twins with disputed := true } }) ∧
    (s.twins.state ≠ 0 → exec .twinMismatch s = .next s) ∧
    (s.twins.disputed = true →
      let u : State := { s with twins := { s.twins with disputed := false, held := [] } }
      (s.twins.held = [] → exec (.twinReexecuteDone true) s = .next (u.sets [(0x2030, 3, s.obj 0x2030 3 + 1)])) ∧
      (∀ (a : Arrival) (h : Hdr) (data : List Byte), s.twins.held = [.msg a h data] → s.unobserved = true → s.inService a.port = true → h.mclass = 1 →
        u.canAnswer a.port (flitsOf data) = true →
        ∃ t, exec (.twinReexecuteDone true) s = .next t ∧ SentOn u t a.port h data ∧
          Leaves s t { u with wire := t.wire, ports := t.ports } [(0x2030, 3, s.obj 0x2030 3 + 1)]) ∧
      (s.idle = true → s.boot.code ≠ 0x31 → s.twins.held = [] → ∃ t, exec (.twinReexecuteDone false) s = .next t ∧
        Leaves s t ({ s with twins := { s.twins with disputed := false } } : State).stoppedNow [s.oneEvent])) ∧
    (∀ ok, s.twins.disputed = false → exec (.twinReexecuteDone ok) s = .next s) ∧
    (s.twins.rejoin ≠ 0 → s.stopped = false → exec (.twinRejoinStepDone false) s = .next { s with twins := { s.twins with
      rejoin := 0, rejoinFails := s.twins.rejoinFails.set (2 - s.twins.state) (s.twins.fails + 1) } }) ∧
    (s.twins.rejoin = 1 ∨ s.twins.rejoin = 2 → s.stopped = false →
      exec (.twinRejoinStepDone true) s = .next { s with twins := { s.twins with rejoin := s.twins.rejoin + 1 } }) ∧
    (s.twins.rejoin = 3 → s.stopped = false → exec (.twinRejoinStepDone true) s = .next { s with twins := { s.twins with rejoin := 0, state := 0 } })) ∧
  (∀ (s : State) (l : Nat), l ∈ s.size.links → s.silent = true → s.determinism = false →
    (s.twins.links.getLsbD l = true → exec (.tubeLinkFail (.link l)) s = .next s) ∧
    (s.twins.links.getLsbD l = false →
      let failed : State := ({ s with twins := { s.twins with links := s.twins.links ||| BitVec.ofNat 64 (2 ^ l) } } : State).raised 0x51 0xFF 0 l
      (∃ t, exec (.tubeLinkFail (.link l)) s = .next t ∧ Leaves s t failed [(0x2031, 2, s.obj 0x2031 2 + 1), s.oneEvent]) ∧
      (∃ t, exec (.crossingParityError (.link l)) s = .next t ∧
        Leaves s t failed [(0x2011, 3, s.obj 0x2011 3 + 1), (0x2031, 2, s.obj 0x2031 2 + 1), s.oneEvent]))) ∧
  (∀ (s : State) (i : Nat), 204 ≤ i → i < 216 → s.silent = true → s.determinism = false →
    ∃ t, exec (.tubeLinkFail (.hub i)) s = .next t ∧
      (∀ l < 64, t.twins.links.getLsbD l = (s.twins.links.getLsbD l ||
        (s.size.links.contains l && ((s.size.linkEnds l).1 == i || (s.size.linkEnds l).2 == i)))) ∧
      t.twins = { s.twins with hubs := insertN s.twins.hubs i, links := t.twins.links } ∧
      t.obj 0x2031 2 = s.obj 0x2031 2 + b2n (t.twins.links != s.twins.links) ∧ objsBut s t [(0x2031, 2), (0x2090, 1)] ∧
      t = { s with twins := t.twins, events := t.events, objs := t.objs }) ∧
  (∀ (s : State) (b : Nat), s.Inv → b < s.size.bays → s.idle = true → s.fenced b = false →
    ∃ t, exec (.crossingParityError (.bay b)) s = .next t ∧
      Leaves s t ((s.modBay b fun y => { y with repair := { y.repair with reason := 8 } }).fencedNow b 4)
        [(0x2011, 3, s.obj 0x2011 3 + 1), s.oneEvent]) ∧
  (∀ (s : State) (n : Nat), s.twins.state = 3 →
    exec (.crossingParityError (.twin n)) s = .next (s.sets [(0x2011, 3, s.obj 0x2011 3 + 1)])) ∧
  (∀ (s : State) (l : List Nat) (rt other coll : Nat),
    let p := sumN l + rt + other + coll
    let env := s.obj 0x2020 1
    let caps := s.capsNow
    let lo := (s.draw.1.toNat % 2 ^ 32, s.draw.1.toNat / 2 ^ 32)
    let base := (sumN l + rt) * 100
    let carrel := if caps.1 < 1000 then 38000 - rt * 100 else other * 100
    let lanes := if caps.2 < 1000 then 7500 else coll * 100
    let set := fun (c d : Nat) (hard : Bool) =>
      ({ s with free := s.free + 1
                bays := s.bays.map fun y => { y with power := { carrelCap := c, collCap := d, limiter := hard } } } : State)
    s.silent = true → s.determinism = false →
    (base + carrel + lanes ≤ env * 100 → p * 100 ≤ env * 105 →
      let c := min 1000 (max 250 lo.1)
      let d := min 1000 (max 250 lo.2)
      ∃ t, exec (.governorWindow l rt other coll) s = .next t ∧ Leaves s t (set c d false)
        [(0x2020, 2, p), (0x2020, 3, b2n (c < 1000) + 2 * b2n (d < 1000) + 4 * b2n (c ≤ 250) + 8 * b2n (d ≤ 250))]) ∧
    (p * 100 ≤ env * 105 → env * 100 < base + carrel + lanes → base + lanes + 9500 < env * 100 →
      let room := env * 100 - (base + lanes)
      let c := min (min 1000 (room * 1000 / 38000)) (max 250 lo.1)
      let d := min 1000 (max 250 lo.2)
      ∃ t, exec (.governorWindow l rt other coll) s = .next t ∧ Leaves s t (set c d false)
        [(0x2020, 2, p), (0x2020, 3, b2n (c < 1000) + 2 * b2n (d < 1000) + 4 * b2n (c ≤ 250) + 8 * b2n (d ≤ 250))]) ∧
    (env * 105 < p * 100 → ∃ t, exec (.governorWindow l rt other coll) s = .next t ∧
      Leaves s t ((set 250 250 true).raised 0x70 0xFF 1)
        [(0x2020, 2, p), (0x2020, 3, 31), (0x2020, 4, s.obj 0x2020 4 + 1), (0x5F10, 1, s.obj 0x5F10 1 + 1), s.oneEvent]))

/-- BRST_N, VAUX and VDDR, a bay's rails, REFCLK and TESTEN: what each loss, return or edge leaves. A release of BRST_N resets
everything but what outlives a reset, reads the straps, and begins step 1, which waits for the rails; its assertion holds the
block in reset. A loss of VAUX or VDDR in reset or step 1 is noted; later it holds the block in reset, every port in service
reporting link-down, and a loss of VAUX takes the pending image. Their return begins step 1 where BRST_N is released and the
block is in reset. A bay rail lost in reset or step 1 is noted; later, in a quiet block with the bay's ports out of service, it
fences the bay with cause 8 and reason 1, drops its Carrel lines and STK_PWREN, and a lost VDDB takes its port islands down.
REFCLK's loss is timed; after 100 us a quiet running block stops. TESTEN's rise stops a quiet block past the awaiting-start
hold; its fall is noted. -/
def Obligations.RailsClockPinsAndReset : Prop :=
  (∀ (s : State) (id rates i3c : Nat),
    (s.boot.brst = true → exec (.brstRelease id rates i3c) s = .next s ∧
      ∃ t l, exec .brstAssert s = .next t ∧ t.wire = l ++ s.wire ∧
        t = { s.cleared none with wire := t.wire, boot := { (s.cleared none).boot with brst := false } }) ∧
    (s.boot.brst = false → exec .brstAssert s = .next s ∧
      ∃ t l, exec (.brstRelease id rates i3c) s = .next t ∧ t.wire = l ++ s.wire ∧
        let u : State := { s.cleared none with
          wire := t.wire, boot := { (s.cleared none).boot with brst := true }
          buses := { (s.cleared none).buses with nodeId := id, rates := rates, i3cStatic := i3c } }
        t = u.begun)) ∧
  (∀ (s : State) (v : Bool),
    let lost (b : Boot) : Boot := { b with vaux := b.vaux && !v, vddr := b.vddr && v, pendingImage := if v then none else b.pendingImage }
    (s.boot.held = true ∨ s.boot.step = 1 → exec (.coreRailLoss v) s = .next { s with boot := lost s.boot }) ∧
    (s.boot.held = false → s.boot.step ≠ 1 → ∃ t l, exec (.coreRailLoss v) s = .next t ∧ t.wire = l ++ s.wire ∧
      (∀ p < s.size.ports, s.inService p = true → Wire.linkDown p ∈ l) ∧
      t = { s.cleared none with wire := t.wire, boot := lost (s.cleared s.boot.pendingImage).boot })) ∧
  (∀ s : State,
    let u : State := { s with boot := { s.boot with vaux := true, vddr := true } }
    exec .railRestore s = .next (if s.boot.held = true ∧ s.boot.brst = true then u.begun else u)) ∧
  (∀ (s : State) (b : Nat) (rail : BayRail), b < s.size.bays → (b, rail) ∉ s.boot.railBad →
    let u : State := { s with boot := { s.boot with railBad := s.boot.railBad ++ [(b, rail)] } }
    (s.boot.held = true ∨ s.boot.step = 1 → exec (.bayRailLoss b rail) s = .next u) ∧
    (s.Inv → s.boot.held = false → s.boot.step ≠ 1 → s.idle = true → s.fenced b = false →
      (rail = .vddb → s.inService (2 * b) = false ∧ s.inService (2 * b + 1) = false) →
      ∃ t, exec (.bayRailLoss b rail) s = .next t ∧
        let v := (u.modBay b fun y => { y with repair := { y.repair with
          reason := 1, island := y.repair.island && rail != .vddb } }).fencedNow b 8
        Leaves s t { v with
          boot := { u.boot with pwren := s.boot.pwren &&& ~~~BitVec.ofNat 24 (2 ^ b) }
          wire := if s.boot.pwren.getLsbD b then Wire.stkPwren b false :: s.wire else s.wire
          mem := { s.mem with carrel := s.mem.carrel.filter fun c => (s.place (64 * c.line)).1 != b } } [s.oneEvent])) ∧
  (∀ s : State,
    (s.boot.refclk = true → exec .refclkLoss s = .next { s with boot := { s.boot with refclk := false, refLostAt := s.now } } ∧
      exec .refclkTimeout s = .next s) ∧
    (s.boot.refclk = false → exec .refclkLoss s = .next s) ∧
    exec .refclkReturn s = .next { s with boot := { s.boot with refclk := true } } ∧
    (s.boot.refclk = false → s.idle = true → s.boot.code = 0x20 → ∃ t, exec .refclkTimeout s = .next t ∧
      Leaves s t (s.when (s.boot.refLostAt + 100000)).stoppedNow [s.oneEvent]) ∧
    exec .testenFall s = .next { s with boot := { s.boot with testen := false } } ∧
    (let u : State := { s with boot := { s.boot with testen := true } }
     let later := s.boot.held = false ∧ s.boot.code ∈ [3, 4, 5, 6, 7, 8, 9, 0x0A, 0x0B, 0x11, 0x12, 0x20]
     (¬ later → exec .testenRise s = .next u) ∧
     (later → s.idle = true → ∃ t, exec .testenRise s = .next t ∧ Leaves s t u.stoppedNow [s.oneEvent])))

/-- BRINGUP_STEP_COMPLETE, BRINGUP_STEP_TIMEOUT and HOST_WAIT_TIMEOUT, step by step. With a bay open and no fault found: step 1
leads to step 2 with its rails good and in time, none lost and no temperature refusing, and fails with reason 1 where VAUX or
VDDR came late; step 2 to the awaiting-start hold with REFCLK within 0.5%, else it fails with reason 2; step 3, the clock plan
accepted and every island and link up, leads to step 4 with both twins and the size's islands in the roster, a refused plan
fails with reason 4; step 4 leads to step 5 or its firmware hold, a dead twin leaves the other alone and two fail with reason 5;
step 5 accepts an image of reason 0 and powers the stacks of the warm bays no logic fences, another is dropped with its reason
and Hard Limit 10; steps 6 to 9 take those bays to states 2, 3 and 4 and lead on to the Shelf List hold; step 11 enables the
ports, advertises their pools and begins a run. A step past its limit of R304 fails with reason 14, and a hold past 0x2000:07
with reason 6, 13 or 15. (Clocks: log 2.) -/
def Obligations.BringUpStepsAndTheirTimeouts : Prop :=
  (∀ (s : State) (r : StepReport), s.boot.held = false → s.boot.step = s.boot.code → (∃ b < s.size.bays, s.fenced b = false) →
    (s.boot.code = 1 → s.boot.vaux = true → s.boot.vddr = true → s.boot.railBad = [] → s.startRefused = false →
      (railsBad r.rails = true → exec (.bringupStepComplete r) s = .next (s.failed 1)) ∧
      (railsBad r.rails = false → baysLate r.rails = [] → exec (.bringupStepComplete r) s = .next (s.toStep 2 2))) ∧
    (s.boot.code = 2 →
      let good := s.boot.refclk = true ∧ 99500000 ≤ r.refclkHz ∧ r.refclkHz ≤ 100500000
      (good → exec (.bringupStepComplete r) s = .next { s with boot := { s.boot with
        lastMs := (s.now - s.boot.t0) / 1000000, code := 0x10 } }) ∧
      (¬ good → exec (.bringupStepComplete r) s = .next (s.failed 2))) ∧
    (s.boot.code = 3 →
      (s.planRefused = true → exec (.bringupStepComplete r) s = .next (s.failed 4 s.planWhere)) ∧
      (s.planRefused = false → r.islandsDown = [] → s.twins.links = 0 → s.twins.hubs = [] →
        ∃ t, exec (.bringupStepComplete r) s = .next t ∧ (∀ i < 264, t.twins.roster.getLsbD i = s.size.hasIsland i) ∧
          t = (({ s with free := s.free + 1, twins := { s.twins with
            state := 0, aligned := s.determinism, roster := t.twins.roster, latency := t.twins.latency } } : State).sets [(0x2011, 2, 0)]).toStep 4 4)) ∧
    (s.boot.code = 4 → s.boot.pendingImage = none →
      let next (w : Twins) : State := { s with twins := w }.toStep 5 (if imageComplete s.boot.image then 5 else 0x11)
      (r.twinDown = 0 → exec (.bringupStepComplete r) s = .next (next s.twins)) ∧
      (r.twinDown = 1 ∨ r.twinDown = 2 → s.twins.state = 0 →
        exec (.bringupStepComplete r) s = .next (next { s.twins with state := 3 - r.twinDown })) ∧
      (r.twinDown = 3 → exec (.bringupStepComplete r) s = .next (s.failed 5))) ∧
    (s.boot.code = 5 → s.Inv → s.silent = true → ∃ t, exec (.bringupStepComplete r) s = .next t ∧
      (imageReason s.boot.image = 0 → t.boot.step = 6 ∧ t.boot.code = 6 ∧
        t.boot.fwVer = some (BitVec.ofNat 32 (ofBytes ((s.boot.image.drop 12).take 4))) ∧
        (∀ b < s.size.bays, let on := (s.bay b).repair.fence ≤ 2 ∧ (s.bay b).therm.below0 = false
          (on → (t.bay b).repair = { (s.bay b).repair with state := 1 } ∧ t.boot.pwren.getLsbD b = true) ∧ (¬ on → t.bay b = s.bay b)) ∧ t = { s with boot := t.boot, bays := t.bays, wire := t.wire }) ∧
      (imageReason s.boot.image ≠ 0 →
        Leaves s t (({ s with boot := { s.boot with image := [] } } : State).failed (imageReason s.boot.image) |>.raised 0x70 0xFF 10)
          [(0x5F10, 10, s.obj 0x5F10 10 + 1), s.oneEvent])) ∧
    (s.boot.code = 6 → s.Inv → r.stackDead = [] → r.stackBad = [] → r.capacity = [] → r.spares = [] → s.coldWait = false →
      exec (.bringupStepComplete r) s = .next (({ s with bays := s.bays.map fun (y : Bay) =>
        let z : Bay := { y with repair := { y.repair with capacity := 128 } }
        if 2 < y.repair.fence then z
        else
          let band := max 1 y.therm.bandOf
          { z with repair := { z.repair with state := 2, onDie := true }, therm := { y.therm with thermal := band }
                   sched := { y.sched with
                     point := y.sched.want.getD (s.obj 0x2010 2), relaxed := decide (2 ≤ band), setB := false
                     refFrom := s.now, refInt := refreshInterval band }
                   train := { y.train with spares := 2 } } } : State).reguarantee.toStep 7 7)) ∧
    (s.boot.code = 7 → s.Inv → r.sweeps = [] → s.obj 0x2000 8 % 2 = 0 → s.obj 0x2B00 3 ≤ 128 →
      (∀ y ∈ s.bays, popcount 64 y.repair.pcsOut.toNat ≤ 4) →
      ∃ t, exec (.bringupStepComplete r) s = .next t ∧ t.boot = (s.toStep 8 8).boot ∧
        ∀ b < s.size.bays, (s.bay b).repair.fence ≤ 2 → (t.bay b).repair = { (s.bay b).repair with state := 3 }) ∧
    (s.boot.code = 8 → s.Inv → r.carrelDead = [] → r.carrelUncal = [] → r.carrelClosed = [] →
      (∀ y ∈ s.bays, y.train.carrelErased.length ≤ 4) →
      ∃ t, exec (.bringupStepComplete r) s = .next t ∧ t.boot = (s.toStep 9 9).boot ∧
        ∀ b < s.size.bays, (s.bay b).repair.fence ≤ 2 → (t.bay b).repair = { (s.bay b).repair with carrel := 3 }) ∧
    (s.boot.code = 9 → s.Inv → r.storeBad = [] →
      let half := s.size.bays / 2
      ((∀ b < half, s.fenced b = false ∨ s.fenced (b + half) = false) →
        ∃ t, exec (.bringupStepComplete r) s = .next t ∧ t = ({ s with bays := t.bays } : State).toStep 10 0x12 ∧
          ∀ b < s.size.bays, let y := s.bay b
            (2 < y.repair.fence → t.bay b = y) ∧
            (y.repair.fence ≤ 2 → t.bay b = { y with repair := { y.repair with state := 4, storePcs := (t.bay b).repair.storePcs } } ∧
              ∀ pc < 64, (t.bay b).repair.storePcs.getLsbD pc = (s.pcsInService b).contains pc)) ∧
      (∀ b < half, s.fenced b = true → s.fenced (b + half) = true → (∀ d < b, s.fenced d = false ∨ s.fenced (d + half) = false) →
        exec (.bringupStepComplete r) s = .next { s.failed 10 b with boot := { (s.failed 10 b).boot with
          lastMs := (s.now - s.boot.t0) / 1000000 } })) ∧
    (s.boot.code = 0x0A → exec (.bringupStepComplete r) s = .next (s.toStep 11 0x0B)) ∧
    (s.boot.code = 0x0B → s.Inv → ∃ t, exec (.bringupStepComplete r) s = .next t ∧
      t.boot = { s.boot with code := 0x20, lastMs := (s.now - s.boot.t0) / 1000000 } ∧ t.runStart = s.now ∧
      t.obj 0x2E00 5 = s.obj 0x2E00 5 + 1 ∧ (s.obj 0x2E00 1 ≠ 1 → t.obj 0x2E00 6 = if s.determinism then 8 else 0) ∧
      ∀ p < s.size.ports,
        let on := (s.portCfg p).testBit 0 = true ∧ (s.port p).linkDown = false
        (¬ on → t.port p = s.port p) ∧
        (on → t.port p = { s.port p with
            up := true, credits := List.replicate 8 0, covered := [], outq := [], discards := []
            free := [4096, 256, 4096, 4096, 2049, 2049, 2049, 2049] } ∧
          ((s.bay (p / 2)).repair.island = true → ∀ c ∈ initialReturns, Wire.credit p c ∈ t.wire)))) ∧
  (∀ (s : State) (n us : Nat), s.setCounters = [] → s.boot.held = false → s.coldWait = false → s.boot.code = n → s.boot.step = n →
    (n, us) ∈ [(1, 200000), (2, 10000), (3, 10000), (4, 20000), (5, 50000), (6, 100000), (7, 100000), (8, 30000), (9, 50000), (11, 1)] →
    (n = 1 → s.boot.vaux = true ∧ s.boot.vddr = true ∧ s.boot.railBad = [] ∧ s.startRefused = false) → (n = 2 → s.boot.refclk = true) →
    exec .bringupStepTimeout s = .next ((s.when (s.boot.stepAt + us * 1000)).failed 14)) ∧
  (∀ s : State, s.setCounters = [] → s.boot.held = false →
    let late := s.when (s.boot.stepAt + s.obj 0x2000 7 * 1000000000)
    (s.boot.code = 0x11 → exec .hostWaitTimeout s = .next (late.failed 6)) ∧
    (s.boot.code = 0x12 → exec .hostWaitTimeout s = .next (late.failed 13)) ∧
    (s.coldWait = true → exec .hostWaitTimeout s = .next (late.failed 15)))

/-- CAL_INTERVAL_EXPIRY, RETRAIN_WINDOW_OPEN and _END, CAL_RUN_TIMEOUT and SLEW_STEP. When the interval since a PC's last run
has passed, a run is requested, with a reading of its quadrant's sensor. The PC whose turn it is, with fewer than four windows
open, gets its window: its run begins with the next window due 64 us on, its rows close and the grant moves on; a PC that may
not retrain gets none. A window ends at most 2 us after it opened and its measurement is kept. The 256th decides: sweeps that do
not agree are counted and the run starts over, up to three times; sweeps that agree give a sealed record with the next CALSER,
the reading and the widths, are counted, and the lanes start from where they sampled. A run without its windows after 20 ms is
discarded and requested again. A slew step moves every lane by at most the step toward its goal. (Clocks of timed rows: log 2.)
-/
def Obligations.CalibrationInTime : Prop :=
  (∀ (s : State) (b pc : Nat), s.Inv → b < s.size.bays → s.setCounters = [] →
    let x := (s.bay b).train
    let u := s.when (getA x.lastRun pc s.boot.t0 + s.obj 0x2B00 2 * 60000000000)
    (s.boot.code = 0x20 → s.fenced b = false → s.pcInService b pc = true →
      (pc ∉ x.requested → (∀ r ∈ x.runs, r.pc ≠ pc) → exec (.calIntervalExpiry b pc) s = .next (u.modBay b fun y =>
        { y with train := { y.train with requested := insertN y.train.requested pc }
                 therm := { y.therm with converting := insertN y.therm.converting (pc / 16) } })) ∧
      (pc ∈ x.requested → exec (.calIntervalExpiry b pc) s = .next u)) ∧
    (s.boot.code ≠ 0x20 ∨ s.fenced b = true ∨ s.pcInService b pc = false → exec (.calIntervalExpiry b pc) s = .next s)) ∧
  (∀ (s : State) (pc j : Nat),
    let b := (s.twins.nextGrant + j) % s.size.bays
    s.Inv → s.setCounters = [] → s.determinism = false → j < s.size.bays → (∀ r ∈ (s.bay b).train.runs, r.pc ≠ pc) →
    (s.mayRetrain b pc = false → exec (.retrainWindowOpen b pc) s = .next s) ∧
    (s.mayRetrain b pc = true → s.windowsOpen < 4 → (∀ i < j, ∀ q < 64, s.mayRetrain ((s.twins.nextGrant + i) % s.size.bays) q = false) →
      (s.lanes b pc).erased = [] →
      exec (.retrainWindowOpen b pc) s = .next { s.modBay b fun y => { y with
        train := { y.train with
          window := some (pc, s.now), runs := y.train.runs ++ [{ pc := pc, began := s.now, nextAt := s.now + 64000 }]
          requested := y.train.requested.filter (· != pc) }
        sched := { y.sched with banks := y.sched.banks.map fun k => if k.pc = pc ∧ k.row ≠ none then { k with row := none, pre := some y.sched.cycle } else k } } with
        twins := { s.twins with nextGrant := (b + 1) % s.size.bays } })) ∧
  (∀ (s : State) (b : Nat) (r : CalRun) (t0 : Nat) (counts : List (Nat × Nat)),
    let x := (s.bay b).train
    let n := max s.now (t0 + 2000)
    let pc := r.pc
    let sweeps := decideRun (s.obj 0x2B00 3) (runSweeps (r.counts ++ [counts]))
    s.Inv → b < s.size.bays → s.setCounters = [] → x.window = some (pc, t0) → x.runs = [r] →
    (r.windows + 1 < 256 → exec (.retrainWindowEnd b pc counts) s = .next { s.modBay b fun y => { y with train := { y.train with
      window := none, runs := [{ r with windows := r.windows + 1, counts := r.counts ++ [counts] }] } } with now := n }) ∧
    (r.windows = 255 → r.tries < 3 → sweeps = none → ∃ t, exec (.retrainWindowEnd b pc counts) s = .next t ∧
      Leaves s t { s.modBay b fun y => { y with train := { y.train with
        window := none, runs := [{ pc := pc, began := n, tries := r.tries + 1 }] } } with now := n }
        [(0x2200 + b, 7, s.obj (0x2200 + b) 7 + 1)]) ∧
    (∀ rd wr, r.windows = 255 → sweeps = some (rd, wr) → rd.closed = [] → wr.closed = [] → s.test.jostleAt = none →
      (s.bay b).sched.point ≤ 2 → pc < 64 →
      let set := s.setInUse b
      ∃ t, exec (.retrainWindowEnd b pc counts) s = .next t ∧
        t.calRec b pc set = (runRecord (recCalser (s.calRec b pc set) + 1) 1 set (s.quadTemp b pc) rd wr).toNat ∧
        (∀ p k, k < 6 → (p, k) ≠ (pc, set) → t.calRec b p k = s.calRec b p k) ∧ t.curPoints b pc = s.curPoints b pc ∧
        (∀ y ∈ (t.bay b).train.slews, y.pc = pc → y.goal = recPoints (t.calRec b pc set)) ∧
        Leaves s t { s.modBay b fun y => { y with train := { y.train with
          window := none, runs := [], records := (t.bay b).train.records, slews := (t.bay b).train.slews
          lastRun := putA y.train.lastRun pc n, eye := putA y.train.eye pc rd.wid } } with now := n }
          [(0x2200 + b, 6, s.obj (0x2200 + b) 6 + 1)]) ∧
    (s.pcInService b pc = true → exec (.calRunTimeout b pc) s = .next { s.modBay b fun y => { y with
      train := { y.train with window := none, runs := [], requested := insertN (y.train.requested.filter (· != pc)) pc }
      therm := { y.therm with converting := insertN y.therm.converting (pc / 16) } } with
        now := max s.now (r.began + 20000000) })) ∧
  (∀ (s : State) (b : Nat) (x : Slew),
    let n := min (s.obj 0x2B00 5) 2
    let step (c g : Nat) : Nat := if c < g then min g (c + n) else max g (c - n)
    let cur := List.zipWith (fun c g => (step c.1 g.1, step c.2 g.2)) x.cur x.goal
    let d := max s.now (x.at_ + s.obj 0x2B00 4 * 1000)
    s.Inv → b < s.size.bays → s.setCounters = [] → s.test.jostleAt = none → ((s.bay b).train.slews.find? fun y => y.pc == x.pc) = some x →
    s.inWindow b x.pc = false → x.goal = recPoints (s.calRec b x.pc (s.setInUse b)) →
    x.cur ≠ x.goal → exec (.slewStep b x.pc) s = .next { s.modBay b fun y => { y with train := { y.train with
      slews := (y.train.slews.filter fun z => z.pc != x.pc) ++
        if cur = x.goal then [] else [{ x with cur := cur, at_ := d }] } } with now := d })

/-- SHIFT_DEFERRAL_EXPIRY, SHIFT_GRANT, BAND_SWAP and SHIFT_COMPLETE. A shift deferred by a burst seeks its grant once the
deferral limit has passed; any other bay is left alone. With fewer than two bays moving, the lowest bay that seeks a swap is
granted; where none does, the lowest that seeks a shift; a bay not at its turn is left alone. A granted bay begins its steps and
its slews stop. A bay whose records of the target set hold a run's values then runs on that set: owed counts are 0 and rows
closed, the timing sets have changed places, a shift has the point granted, a swap the point it had, a wait goes on where
another point has been asked for, and it is counted with its time, 40 us or 14 us (log 2). No PC is asked to retrain, unless it
failed step 7. -/
def Obligations.ShiftsAndSwapsInTurn : Prop :=
  (∀ (s : State) (b : Nat),
    let y := (s.bay b).sched
    let d := y.shiftAt + s.obj (0x2100 + b) 0x0D * 1000
    s.setCounters = [] →
    (y.shift = .awaiting → y.swapWanted = false → (s.bay b).train.anyRun = false → (∃ p ∈ y.pcs, p.burst = true) → s.now < d →
      exec (.shiftDeferralExpiry b) s = .next (s.when d) ∧ (s.when d).shiftState b = 1) ∧
    (y.shift ≠ .awaiting ∨ y.swapWanted = true ∨ (∀ p ∈ y.pcs, p.burst = false) ∨ d ≤ s.now →
      exec (.shiftDeferralExpiry b) s = .next s)) ∧
  (∀ (s : State) (b : Nat), s.Inv → b < s.size.bays →
    let few := (s.bays.filter fun y => y.sched.moving).length < 2
    let swap := few ∧ s.seeks b true = true ∧ ∀ c < b, s.seeks c true = false
    let shift := few ∧ (∀ c < s.size.bays, s.seeks c true = false) ∧ s.seeks b false = true ∧ ∀ c < b, s.seeks c false = false
    let granted (k : ShiftSt) : State := s.modBay b fun y => { y with
      sched := { y.sched with shift := k, grantedAt := s.now
                              shadow := (if k = .swapping then y.sched.point else y.sched.want.getD (s.obj 0x2010 2)) * 2 +
                                (if 2 ≤ y.therm.thermal then 1 else 0) }
      therm := { y.therm with stale := y.therm.stale ||| 64 }
      train := { y.train with slews := [] } }
    (shift → exec (.shiftGrant b) s = .next (granted .shifting)) ∧ (¬ shift → exec (.shiftGrant b) s = .next s) ∧
    (swap → exec (.bandSwap b) s = .next (granted .swapping)) ∧ (¬ swap → exec (.bandSwap b) s = .next s)) ∧
  (∀ (s : State) (b : Nat) (failed : List Nat),
    let y := (s.bay b).sched
    let swap := decide (y.shift = .swapping)
    let point := y.shadow / 2
    let relaxed := decide (y.shadow % 2 = 1)
    let warm := decide (2 ≤ (s.bay b).therm.thermal)
    let ns := if swap then 14000 else 40000
    let n := max s.now (y.grantedAt + ns)
    let more := decide (y.want.getD (s.obj 0x2010 2) ≠ point)
    s.Inv → b < s.size.bays → s.idle = true →
    (y.moving = false → exec (.shiftComplete b failed) s = .next s) ∧
    (y.moving = true → (∀ pc < 64, s.pcInService b pc = true → recState (s.calRec b pc (point * 2 + b2n relaxed)) = 1 ∧ pc ∉ failed) →
      ∃ t, exec (.shiftComplete b failed) s = .next t ∧
        Leaves s t { s.modBay b fun z => { z with
          sched := { z.sched with
            banks := z.sched.banks.map fun k =>
              { k with owed := 0, due := none, counted := false, force := false, at9 := none, row := none }
            setB := !y.setB, point := point, relaxed := relaxed, shadow := y.point * 2 + (if y.relaxed then 1 else 0)
            swapWanted := relaxed != warm, shift := if more then .awaiting else .none
            refFrom := y.grantedAt + ns - 3500, refInt := refreshInterval z.therm.thermal
            cycle := y.cycle + (if point = 0 then 375 else if point = 1 then 300 else 240) }
          therm := { z.therm with stale := z.therm.stale &&& 0xBF } } with now := n }
          [(0x2200 + b, 0x23, s.obj (0x2200 + b) 0x23 + 1), (0x2200 + b, 0x24, if swap then 140 else 400)]))

/-- Comparators, polls and readings; the ladder's steps; trips and restarts. A comparator shows in its sensor's byte, the two
cold ones inverted; in reset nothing follows. In a quiet block, inputs that do not trip a live bay nor change its ladder set its
band, with rescaled refresh and a swap wanted where its timing set changes; inputs that trip it fence it with cause 3, stop its
shift, runs and slews, count it, and engage Hard Limit 3. A poll, 100 us after the last, sets the stack's byte at each threshold
reached and clears it 3 °C below. The schedule demands every sensor at its interval; a conversion that ends gives the reading.
The ladder goes down a level 200 us after the last step, counted; up a level likewise, and SLOW_REQ falls with the last bay. The
Carrel refreshes at 1, 2 or 4 times its rate by the band of S4 alone. A tripped, or cold, bay whose time is over, polled below
95 °C with no fault found, rejoins with its event; one polled hotter trips again. -/
def Obligations.HeatLadderTripsAndRestarts : Prop :=
  (∀ (s : State) (b i th : Nat) (on : Bool), s.Inv → b < s.size.bays → i < 6 → th < 7 → (4 ≤ i → th ≠ 6) →
    let y := s.bay b
    let m : BitVec 8 := BitVec.ofNat 8 (2 ^ th)
    let v : BitVec 8 := if on = decide (2 ≤ th) then y.therm.comp i ||| m else y.therm.comp i &&& ~~~m
    let x : Thermal := { y.therm with comps := y.therm.comps.set i v }
    let tripped : Thermal := { x with thermal := 5, cause := x.tripCause, stale := x.stale ||| 64 }
    (s.boot.held = true → s.coldWait = false → exec (.comparatorChange b i th on) s = .next (s.modBay b fun y => { y with therm := x })) ∧
    (s.boot.held = false → s.coldWait = false → s.idle = true → mildFor y x = true →
      exec (.comparatorChange b i th on) s = .next (s.inBand b x)) ∧
    (s.boot.held = false → s.coldWait = false → s.idle = true → s.fenced b = false → y.therm.live = true → y.repair.state ≠ 0 →
      1 ≤ x.tripCause → x.tripCause ≤ 3 → x.at120 = false → tripped.at120 = false → tripped.anyBit 4 = y.therm.inLadder →
      ∃ t, exec (.comparatorChange b i th on) s = .next t ∧
        Leaves s t ((((s.modBay b fun y => { y with
          therm := { tripped with coolAt := if (List.range 6).all fun j => !(x.comp j).getLsbD 3 then s.now + 10000000000 else 0 }
          sched := { y.sched with shift := .none, swapWanted := false }
          train := { y.train with slews := [] }
          repair := { y.repair with trips := s.now :: y.repair.trips.filter fun d => s.now < d + 86400000000000 } }).raised 0x70 0xFF 3).raised
            0x11 b x.tripCause).fencedNow b 3)
          [(0x2A00, 8, s.obj 0x2A00 8 + 1), (0x5F10, 3, s.obj 0x5F10 3 + 1), (0x2090, 1, s.obj 0x2090 1 + 3)])) ∧
  (∀ (s : State) (b : Nat) (temp : Int), s.Inv → b < s.size.bays →
    let y := s.bay b
    let c : BitVec 8 := (List.range 7).foldl (fun v k =>
      let th : Int := [-160, 0, 1360, 1520, 1680, 1760, 1920].getD k 0
      let m : BitVec 8 := BitVec.ofNat 8 (2 ^ k)
      if th ≤ temp then (if k < 2 then v &&& ~~~m else v ||| m) else if temp ≤ th - 48 then (if k < 2 then v ||| m else v &&& ~~~m) else v)
      (y.therm.comp 6)
    let n := max s.now (y.therm.polledAt + 100000)
    let x : Thermal := { y.therm with poll := temp, polledAt := n, comps := y.therm.comps.set 6 c }
    (y.repair.state < 2 ∨ y.therm.live = false ∨ y.sched.moving = true → exec (.stackTempPoll b temp) s = .next s) ∧
    (2 ≤ y.repair.state → y.sched.moving = false → s.idle = true → mildFor y x = true →
      exec (.stackTempPoll b temp) s = .next ((s.when n).inBand b x))) ∧
  (∀ s : State, s.Inv →
    (s.obj 0x2A00 5 = 0 → exec .sensorSchedule s = .next s) ∧
    (s.obj 0x2A00 5 ≠ 0 → s.setCounters = [] →
      let n := max s.now (s.health.sensedAt + s.obj 0x2A00 5 * 1000000)
      exec .sensorSchedule s = .next { s with now := n, health := { s.health with sensedAt := n }, bays := s.bays.map fun y =>
      { y with therm := { y.therm with converting := (List.range 6).foldl insertN y.therm.converting } } })) ∧
  (∀ (s : State) (b i : Nat) (temp : Int), s.Inv → b < s.size.bays →
    (i ∉ (s.bay b).therm.converting → exec (.sensorReadingDone b i temp) s = .next s) ∧
    (i ∈ (s.bay b).therm.converting → s.quadStale b i = false → s.boot.code ≠ 0x20 ∨ s.fenced b = true ∨ 5 ≤ i →
      exec (.sensorReadingDone b i temp) s = .next (s.modBay b fun y => { y with therm := { y.therm with
        converting := y.therm.converting.filter (· != i), readings := y.therm.readings.set i temp } })) ∧
    (i ∈ (s.bay b).therm.converting → s.quadStale b i = true →
      exec (.sensorReadingDone b i temp) s = .next (s.modBay b fun y => { y with therm := { y.therm with
        converting := y.therm.converting.filter (· != i) } }))) ∧
  (∀ (s : State) (b : Nat), s.Inv → b < s.size.bays → s.idle = true →
    let x := (s.bay b).therm
    let n := max s.now (x.ladderAt + 200000)
    let at_ (l : Nat) : State := { s.modBay b fun y => { y with therm := { y.therm with level := l, ladderAt := n } } with now := n }
    (x.inLadder = true → x.level = 1 ∨ x.level = 2 → ∃ t, exec (.ladderStepDown b) s = .next t ∧
      Leaves s t (at_ (x.level + 1)) [(0x2A00, 7, s.obj 0x2A00 7 + 1)]) ∧
    (x.inLadder = false → x.level = 3 → s.boot.slowReq = true → exec (.ladderStepUp b) s = .next (at_ 2)) ∧
    (x.inLadder = false → x.level = 2 → s.boot.slowReq = true →
      ((∃ d < s.size.bays, d ≠ b ∧ (s.bay d).therm.level ≠ 0) → exec (.ladderStepUp b) s = .next (at_ 0)) ∧
      ((∀ d < s.size.bays, d ≠ b → (s.bay d).therm.level = 0) → exec (.ladderStepUp b) s = .next { at_ 0 with
        boot := { s.boot with slowReq := false }, wire := Wire.slowReq false :: s.wire }))) ∧
  (∀ x : Thermal, x.carrelRate = if (x.comp 4).getLsbD 3 = true then 4 else if (x.comp 4).getLsbD 2 = true then 2 else 1) ∧
  (∀ (s : State) (b : Nat) (r : RestartReport) (c : Instr), s.Inv → b < s.size.bays → s.idle = true → (s.bay b).repair.fence = 3 → (s.bay b).repair.state ≠ 0 →
    (s.bay b).therm.coolAt ≠ 0 → (s.bay b).therm.thermal = 5 ∧ c = .tripRestart b r ∨ (s.bay b).therm.thermal = 0 ∧ c = .coldRestart b r →
    let x := (s.bay b).therm
    let u := s.when x.coolAt
    let y : Thermal := { x with stale := x.stale &&& 0xBF, poll := r.poll, comps := x.comps.set 6 (pollComp (x.comp 6) r.poll) }
    (r.poll < 1520 → r.report = {} → popcount 64 (s.bay b).repair.pcsOut.toNat ≤ 4 → s.obj 0x2B00 3 ≤ 128 →
      (s.bay b).train.carrelErased.length ≤ 4 → y.tripCause = 0 → y.at120 = false → y.anyBit 4 = x.inLadder →
      ∃ t, exec c s = .next t ∧ (t.bay b).repair = { (s.bay b).repair with fence := 0, carrel := 3 } ∧
        (t.bay b).therm = { y with thermal := max 1 y.bandOf, coolAt := 0 } ∧ (∀ d, d ≠ b → t.bay d = s.bay d) ∧
        t = { u with bays := t.bays, objs := t.objs, free := t.free, events := (u.raised 0x12 b).events }) ∧
    (1520 ≤ r.poll → ∃ t, exec c s = .next t ∧ (t.bay b).repair.fence = 3 ∧ (t.bay b).therm.thermal = 5 ∧ (t.bay b).therm.cause = 6 ∧
      t.obj 0x2A00 8 = s.obj 0x2A00 8 + 1 ∧ t.obj 0x5F10 3 = s.obj 0x5F10 3 + 1 ∧ (∀ d, d ≠ b → t.bay d = s.bay d) ∧
      t = { u with bays := t.bays, objs := t.objs, events := t.events, day := t.day, test := t.test }))

/-- HEALTH_SCORE_UPDATE, PAUSED, PAUSE_TIMEOUT, HEARTBEAT, CAN_TRANSFER_ABANDON and the ends of Jostle. Each second every bay
gets the score of R384 as its state then gives it, and the block the one it gives at 0x2D00:01; a healthy bay stays healthy at
or above the warning threshold, begins its dwell below it and goes to warning when the dwell is over, and nothing but records of
health changes. A pausing block with nothing under way is paused: sequences are dropped and partners get a SYNC; any other
waits, and fails to pause at its limit. With a heartbeat time and a node ID the state byte goes out: 0x05 running, 0x04 stopped,
else 0x7F, while the twins agree. A silent client's transfer is aborted with 0x05040000. Jostle without slots ends at its
duration, and a held class's credits return in full when its hold ends. (Clocks of timed rows: log 2.) -/
def Obligations.HealthPauseAndTimers : Prop :=
  (∀ s : State, s.Inv → s.setCounters = [] → s.silent = true →
    let u := s.when (s.health.at_ + 1000000000)
    ∃ t, exec .healthScoreUpdate s = .next t ∧
      (∀ b < s.size.bays,
        let r := (s.bay b).repair
        let score := u.bayScore b
        (t.bay b).repair = { r with score := score, health := (t.bay b).repair.health, badSince := (t.bay b).repair.badSince
                                    goodSince := (t.bay b).repair.goodSince } ∧
        (t.bay b) = { s.bay b with repair := (t.bay b).repair } ∧
        (r.health = 0 → s.obj 0x2D00 3 ≤ score → (t.bay b).repair.health = 0 ∧ (t.bay b).repair.badSince = none) ∧
        (r.health = 0 → score < s.obj 0x2D00 3 → ∀ d, r.badSince.getD u.now = d →
          (u.now < d + s.obj 0x2D00 7 * 1000000000 → (t.bay b).repair.health = 0 ∧ (t.bay b).repair.badSince = some d) ∧
          (d + s.obj 0x2D00 7 * 1000000000 ≤ u.now → (t.bay b).repair.health = 1))) ∧
      t.obj 0x2D00 1 = u.blockScore (t.bays.map fun y => y.repair.score) ∧ t.obj 0x2D00 2 = t.health.state ∧
      t.health.at_ = u.now ∧ objsBut s t [(0x2D00, 1), (0x2D00, 2), (0x2090, 1)] ∧
      t = { u with bays := t.bays, health := t.health, objs := t.objs, events := t.events }) ∧
  (∀ s : State, s.obj 0x2E00 1 ≠ 1 → s.setCounters = [] →
    (s.obj 0x2E00 0x0E = 1 → s.pauseReady = true → s.obj 0x2E00 0x0B ≠ 2 → s.obj 0x2E00 0x0B ≠ 3 →
      exec .paused s = .next (({ s with
        seqs := [], partners := s.partners.map fun p => { p with needSync := true }
        day := { s.day with pausedAt := some s.now } } : State).sets [(0x2E00, 0x0E, 2)])) ∧
    (s.obj 0x2E00 0x0E ≠ 1 ∨ s.pauseReady = false → exec .paused s = .next s) ∧
    (s.obj 0x2E00 0x0E = 1 → exec .pauseTimeout s = .next (({ s.when (s.day.pausedAt.getD s.now + s.obj 0x2E00 0x0F * 1000000) with
      day := { s.day with pausedAt := none } } : State).sets [(0x2E00, 0x0E, 3)])) ∧
    (s.obj 0x2E00 0x0E ≠ 1 → exec .pauseTimeout s = .next s)) ∧
  (∀ s : State, s.setCounters = [] →
    let n := max s.now (s.buses.lastBeat + s.obj 0x1017 0 * 1000000)
    (s.obj 0x1017 0 ≠ 0 → s.buses.nodeId ≠ 0 → s.catalogueUp = true → s.twins.disputed = false → exec .heartbeat s = .next { s with
      now := n, buses := { s.buses with lastBeat := n }
      wire := Wire.can (0x700 + s.buses.nodeId) [if s.boot.code = 0x20 then 0x05 else if s.boot.code = 0x31 then 0x04 else 0x7F] :: s.wire }) ∧
    (s.obj 0x1017 0 = 0 ∨ s.buses.nodeId = 0 ∨ s.catalogueUp = false → exec .heartbeat s = .next s)) ∧
  (∀ (s : State) (ch : Nat) (x : Sdo), s.setCounters = [] → s.sdo ch = some x →
    (x.wait = true → exec (.canTransferAbandon ch) s = .next s) ∧
    (x.wait = false → s.channelOn ch = true → s.twins.disputed = false → exec (.canTransferAbandon ch) s = .next { s with
      now := max s.now (x.at_ + 5000000000), buses := { s.buses with sdo := delA s.buses.sdo ch }
      wire := Wire.can (if ch = 0 then 0x580 + s.buses.nodeId else s.obj (0x1200 + ch) 2)
        ([0x80] ++ toBytes 2 x.index ++ toBytes 1 x.sub ++ [0x00, 0x00, 0x04, 0x05]) :: s.wire })) ∧
  (∀ s : State, s.setCounters = [] →
    (s.test.jostleAt = none → exec .jostleTimeout s = .next s) ∧
    (∀ t0, s.test.jostleAt = some t0 → (∀ i < 16, s.obj 0x3810 (i + 1) / 2 ^ 60 % 16 = 0) →
      exec .jostleTimeout s = .next (({ s.when (t0 + s.obj 0x3800 2 * 1000000000) with
        test := { s.test with jostleAt := none, jostleEnded := [], jostleGen := [] } } : State).sets [(0x3800, 1, 0)]))) ∧
  (∀ (s : State) (p : Nat) (c : BitVec 2) (h : CreditHold), s.setCounters = [] →
    ((∀ x ∈ (s.port p).holds, x.cls ≠ c.toNat) → exec (.jostleCreditHoldEnd p c) s = .next s) ∧
    ((s.port p).holds = [h] → h.cls = c.toNat → exec (.jostleCreditHoldEnd p c) s = .next { s.setPort p { s.port p with holds := [] } with
      now := max s.now h.until_, wire := ((creditWords c.toNat h.withheld).map fun w => Wire.credit p w).reverse ++ s.wire }))

/-- CAN_SDO_FRAME, I3C_REQUEST, I3C_ANSWER_READ and the common command codes. (While the twins agree; what they dispute is
held.) A frame on no SDO channel changes nothing; an abort ends the channel's transfer; an unknown command is aborted with
0x05040001. An expedited download of a plain setting sets it and is confirmed, and an expedited upload of a plain object of up
to four bytes returns its value. An I3C request while one is pending is refused with 0x08000021; one whose length is wrong, or
whose command is unknown, gets its abort code as the answer; a write of a plain setting sets it; a read of a plain object leaves
its value, which the controller reads as status, code, length and bytes up to the read length. ENTDAA and SETDASA give an
address where there is none, RSTDAA takes it, ENEC and DISEC switch interrupts, SETMWL and SETMRL set lengths, and the GET codes
return what R431 names; GETSTATUS returns a free value (log 3). -/
def Obligations.CanAndI3cTransports : Prop :=
  (∀ (s : State) (ident : Nat) (f : List Byte), s.catalogueUp = true → s.twins.disputed = false → f.length = 8 →
    (s.channelOf ident = none → exec (.canSdoFrame ident f) s = .next s) ∧
    (∀ ch, s.channelOf ident = some ch →
      let tx := if ch = 0 then 0x580 + s.buses.nodeId else s.obj (0x1200 + ch) 2
      let k := Sess.can ch
      (∀ x, s.sdo ch = some x → f.headD 0 = 0x80 →
        exec (.canSdoFrame ident f) s = .next { s with buses := { s.buses with sdo := delA s.buses.sdo ch } }) ∧
      (s.sdo ch = none → f.headD 0 ∈ [0x00#8, 0x60, 0xE0] → exec (.canSdoFrame ident f) s = .next { s with
        wire := Wire.can tx ([0x80] ++ (f.drop 1).take 3 ++ [0x01, 0x00, 0x04, 0x05]) :: s.wire }) ∧
      (∀ i sub n v r, s.sdo ch = none → i < 65536 → sub < 256 → 1 ≤ n → n ≤ 4 → s.objDef i sub = some r → r.size = n →
        (plainWrite i sub = true → s.accepts k i sub v = true →
          f = [BitVec.ofNat 8 (0x23 + (4 - n) * 4)] ++ toBytes 2 i ++ toBytes 1 sub ++ padTo 4 (toBytes n v) →
          ∃ t, exec (.canSdoFrame ident f) s = .next t ∧ t.obj i sub = v ∧
            t.wire = Wire.can tx ([0x60] ++ toBytes 2 i ++ toBytes 1 sub ++ zeros 4) :: s.wire ∧
            (∀ j x, x < 256 → dayObject j x = false → (j, x) ≠ (i, sub) → t.obj j x = s.obj j x) ∧
            t = { s.seated k with wire := t.wire, objs := t.objs, day := t.day, test := { s.test with ctrs := t.test.ctrs } }) ∧
        (plainRead i sub = true → r.acc ≠ .wo → r.sel = false → (∀ x, s.computed x i sub = none) → (s.session k).isSome = true →
          s.stopped = false → f = [0x40] ++ toBytes 2 i ++ toBytes 1 sub ++ zeros 4 →
          ∃ t, exec (.canSdoFrame ident f) s = .next t ∧
            t.wire = Wire.can tx ([BitVec.ofNat 8 (0x43 + (4 - n) * 4)] ++ toBytes 2 i ++ toBytes 1 sub ++ padTo 4 (toBytes n (s.obj i sub))) :: s.wire ∧
            t = { s.seated k with wire := t.wire, test := { s.test with ctrs := t.test.ctrs } })))) ∧
  (∀ (s : State) (cmd : Byte) (i sub : Nat) (val : List Byte), s.catalogueUp = true → s.twins.disputed = false →
    let req (c : Byte) (n : Nat) : List Byte := [c] ++ toBytes 2 i ++ toBytes 1 sub ++ toBytes 2 n ++ val
    let answer (x : Nat × Nat × List Byte) : State := { s with buses := { s.buses with i3cAnswer := some x } }
    (∀ bytes c v, s.buses.i3cAnswer = some (1, c, v) → exec (.i3cRequest bytes) s = .next { s with
      wire := Wire.cat .i3c 0x08000021 [] :: s.wire }) ∧
    ((s.buses.i3cAnswer.map (·.1)) ≠ some 1 →
      (∀ n < 65536, n ≠ val.length → exec (.i3cRequest (req cmd n)) s = .next (answer (2, 0x06070010, []))) ∧
      (val.length < 65536 → 6 + val.length ≤ s.buses.i3cMwl → cmd ≠ 1 → cmd ≠ 2 →
        exec (.i3cRequest (req cmd val.length)) s = .next (answer (2, 0x06090030, []))) ∧
      (∀ v r, 6 + val.length ≤ s.buses.i3cMwl → i < 65536 → sub < 256 → s.objDef i sub = some r → r.size < 65536 →
        (val = toBytes r.size v → plainWrite i sub = true → s.accepts .i3c i sub v = true →
          ∃ t, exec (.i3cRequest (req 2 val.length)) s = .next t ∧ t.obj i sub = v ∧
            (∀ j x, x < 256 → dayObject j x = false → (j, x) ≠ (i, sub) → t.obj j x = s.obj j x) ∧
            t = { s.seated .i3c with objs := t.objs, day := t.day, test := { s.test with ctrs := t.test.ctrs }
                                     buses := { s.buses with i3cAnswer := some (0, 0, []) } }) ∧
        (val = [] → plainRead i sub = true → r.acc ≠ .wo → r.sel = false → (∀ x, s.computed x i sub = none) → (s.session .i3c).isSome = true →
          s.stopped = false →
          ∃ t, exec (.i3cRequest (req 1 0)) s = .next t ∧
            t = { s.seated .i3c with test := { s.test with ctrs := t.test.ctrs }
                                     buses := { s.buses with i3cAnswer := some (0, 0, toBytes r.size (s.obj i sub)) } })))) ∧
  (∀ (s : State) (st code : Nat) (v : List Byte) (addr static len : Nat) (bits : Byte), s.catalogueUp = true →
    let sent (bs : List Byte) : State := { s with wire := Wire.i3c bs :: s.wire }
    (s.buses.i3cAnswer = some (st, code, v) → exec .i3cAnswerRead s = .next (sent
      ((toBytes 1 st ++ toBytes 4 code ++ toBytes 2 v.length ++ v).take s.buses.i3cMrl))) ∧
    (s.buses.i3cAnswer = none → exec .i3cAnswerRead s = .next (sent (List.replicate (min 7 s.buses.i3cMrl) 0))) ∧
    (s.buses.i3cDyn = 0 →
      exec (.entdaa addr) s = .next { sent (toBytesBe 6 Config.i3cPid.toNat ++ [0x06, 0x00]) with
        buses := { s.buses with i3cDyn := addr % 128 } } ∧
      exec (.setdasa static addr) s = .next (if static = s.buses.i3cStatic then { s with buses := { s.buses with i3cDyn := addr % 128 } } else s)) ∧
    (s.buses.i3cDyn ≠ 0 → exec (.entdaa addr) s = .next s ∧ exec (.setdasa static addr) s = .next s) ∧
    exec .rstdaa s = .next { s with buses := { s.buses with i3cDyn := 0 } } ∧
    exec (.enec bits) s = .next { s with buses := { s.buses with i3cEvents := s.buses.i3cEvents || bits.getLsbD 0 } } ∧
    exec (.disec bits) s = .next { s with buses := { s.buses with i3cEvents := s.buses.i3cEvents && !bits.getLsbD 0 } } ∧
    exec .getpid s = .next (sent (toBytesBe 6 Config.i3cPid.toNat)) ∧
    exec .getbcr s = .next (sent [0x06]) ∧
    exec .getdcr s = .next (sent [0x00]) ∧
    exec .getstatus s = .next { sent (toBytes 2 (Config.freeValue s.free).toNat) with free := s.free + 1 } ∧
    (len < 65536 → exec (.setmwl len) s = .next { s with buses := { s.buses with i3cMwl := len } } ∧
      exec (.setmrl len) s = .next { s with buses := { s.buses with i3cMrl := len } }) ∧
    exec .getmwl s = .next (sent (toBytesBe 2 s.buses.i3cMwl)) ∧
    exec .getmrl s = .next (sent (toBytesBe 2 s.buses.i3cMrl ++ [1])))

/-- The test access port: what each instruction loads, shifts out and selects, and that intrusive ones need TESTEN. Every
command loads its instruction. BYPASS passes one bit through the bypass register, which starts at 0 when it comes into use.
IDCODE shifts out the 32 bits of R465, bit 0 first. SAMPLE/PRELOAD takes the pins' levels and shifts them out. EXTEST and CLAMP
drive the outputs with the boundary register's levels and HIGHZ lets them float, while TESTEN is high; with TESTEN low none of
these acts. WSEL, WSP and D3D take their registers while TESTEN is high, and act as BYPASS while it is low. Test-Logic-Reset
gives IDCODE. Nothing but the test access port changes, and the capture of the bypass register is the model's reading (log 34).
-/
def Obligations.TestAccessPort : Prop :=
  ∀ s : State,
    let u (ir : BitVec 8) : State := { s with test := { s.test with ir := ir } }
    let low (ir : BitVec 8) : State := { s with test := { s.test with ir := ir, bypassBit := false } }
    (∀ tdi, exec (.bypass tdi) s = .next { s with test := { s.test with ir := 0xFF, bypassBit := tdi }, wire := Wire.tdo [false] :: s.wire }) ∧
    exec .idcode s = .next { u 0x01 with wire := Wire.tdo ((List.range 32).map fun i =>
      (((0x2 : BitVec 4) ++ BitVec.ofNat 16 (0x4B00 + s.size.bays) ++ Config.manufacturer ++ (1 : BitVec 1)) : BitVec 32).getLsbD i) :: s.wire } ∧
    (∀ pins, exec (.samplePreload pins) s = .next { s with test := { s.test with ir := 0x02, pins := pins }, wire := Wire.tdo pins :: s.wire }) ∧
    (s.boot.testen = true →
      exec .extest s = .next (u 0x03) ∧ (u 0x03).boundary = some s.test.pins ∧
      exec .clamp s = .next (u 0x04) ∧ (u 0x04).boundary = some s.test.pins ∧
      exec .highz s = .next (u 0x05) ∧ (u 0x05).floating = true ∧ (u 0x05).boundary = none ∧
      (∀ w, exec (.wsel w) s = .next { s with test := { s.test with ir := 0x10, wrapper := BitVec.ofNat 9 w } }) ∧
      (∀ i, exec (.wsp i) s = .next { s with test := { s.test with ir := 0x11, wirInstr := i } }) ∧
      (∀ b, exec (.d3d b) s = .next { s with test := { s.test with ir := 0x20, bayReg := BitVec.ofNat 5 b } })) ∧
    (s.boot.testen = false →
      exec .extest s = .next (low 0x03) ∧ (low 0x03).boundary = none ∧
      exec .clamp s = .next (low 0x04) ∧ (low 0x04).boundary = none ∧
      exec .highz s = .next (low 0x05) ∧ (low 0x05).floating = false ∧
      (∀ w, exec (.wsel w) s = .next (low 0x10)) ∧ (∀ i, exec (.wsp i) s = .next (low 0x11)) ∧
      (∀ b, exec (.d3d b) s = .next (low 0x20))) ∧
    exec .testLogicReset s = .next (u 0x01)

/-- IDCODE is 32 bits with the release, the number of bays and the manufacturer, and reset selects it. IDCODE shifts out 32
bits, bit 0 first: bits 31 to 28 are 2, bits 27 to 12 are 0x4B00 plus the number of bays, which is 0x4B18 on the largest size,
bits 11 to 1 are the manufacturer identity, a constant that nothing in the model fixes, and bit 0 is 1. After a test-logic reset
the instruction is the one that IDCODE loads. -/
def Obligations.IdcodeNamesTheBlock : Prop :=
  ∀ s : State, ∃ (v : BitVec 32) (t u : State),
    exec .idcode s = .next t ∧ t.wire = Wire.tdo ((List.range 32).map fun i => v.getLsbD i) :: s.wire ∧
    v.extractLsb' 28 4 = 0x2#4 ∧ (v.extractLsb' 12 16).toNat = 0x4B00 + s.size.bays ∧ (s.size = .kz24 → v.extractLsb' 12 16 = 0x4B18#16) ∧
    v.extractLsb' 1 11 = Config.manufacturer ∧ v.extractLsb' 0 1 = 1#1 ∧
    exec .testLogicReset s = .next u ∧ u.test.ir = t.test.ir
end

