-- ==== Sys2Proof/Laws/Lists.lean ====
section
/-! SUPPORT. What the sparse lists answer after an update, and that updates keep their canonical form. -/

namespace Sys2Proof.Machine

variable {α : Type}

theorem getA_cons (p : Nat × α) (l : List (Nat × α)) (j : Nat) (d : α) : getA (p :: l) j d = if p.1 = j then p.2 else getA l j d := by
  unfold getA
  by_cases h : p.1 = j
  · simp [List.find?, h]
  · have h' : (p.1 == j) = false := beq_eq_false_iff_ne.mpr h
    simp [List.find?, h, h']

/-- Reading after `putA`: the value put at its key, and the value of before at every other key. -/
theorem getA_putA (l : List (Nat × α)) (k j : Nat) (v d : α) : getA (putA l k v) j d = if j = k then v else getA l j d := by
  induction l with
  | nil => simp only [putA, getA_cons, eq_comm]
  | cons p l ih =>
    obtain ⟨k', v'⟩ := p
    simp only [putA]
    split
    · simp only [getA_cons, eq_comm]
    · split
      · next h' => subst h'; simp only [getA_cons]; by_cases h : k = j <;> simp [h, eq_comm]
      · next h1 h2 =>
        simp only [getA_cons, ih]
        by_cases h : k' = j
        · subst h; simp [Ne.symm h2]
        · simp [h]

/-- Reading after `delA`. -/
theorem getA_delA (l : List (Nat × α)) (k j : Nat) (d : α) : getA (delA l k) j d = if j = k then d else getA l j d := by
  induction l with
  | nil => simp [delA, getA]
  | cons p l ih =>
    obtain ⟨k', v'⟩ := p
    unfold delA at ih ⊢
    by_cases h : k' = k
    · subst h
      simp only [List.filter, bne_self_eq_false, ih, getA_cons]
      by_cases hj : j = k' <;> simp [hj, eq_comm]
    · have h' : (k' != k) = true := by simp [h]
      simp only [List.filter, h', getA_cons, ih]
      by_cases hj : k' = j
      · subst hj; simp [h]
      · simp [hj]

/-- Reading after `setA` with one default for reading and writing at the key. -/
theorem getA_setA [DecidableEq α] (l : List (Nat × α)) (k j : Nat) (v d e : α) (he : j = k → e = d) :
    getA (setA l k v d) j e = if j = k then v else getA l j e := by
  unfold setA
  split
  · next h => subst h; rw [getA_delA]; split <;> simp_all
  · exact getA_putA l k j v e

theorem risingFrom_mono {m n : Nat} (h : m ≤ n) : ∀ {l : List (Nat × α)}, risingFrom n l = true → risingFrom m l = true
  | [], _ => rfl
  | (k, _) :: l, hl => by simp only [risingFrom, Bool.and_eq_true, decide_eq_true_eq] at hl ⊢; exact ⟨by omega, hl.2⟩

theorem risingFrom_putA (k : Nat) (v : α) : ∀ {m : Nat} {l : List (Nat × α)}, m ≤ k → risingFrom m l = true →
    risingFrom m (putA l k v) = true
  | m, [], hk, _ => by simp [putA, risingFrom, hk]
  | m, (j, w) :: l, hk, hl => by
    simp only [risingFrom, Bool.and_eq_true, decide_eq_true_eq] at hl
    simp only [putA]
    split
    · simp only [risingFrom, Bool.and_eq_true, decide_eq_true_eq]; exact ⟨hk, by omega, hl.2⟩
    · split
      · next h => subst h; simp only [risingFrom, Bool.and_eq_true, decide_eq_true_eq]; exact ⟨hk, hl.2⟩
      · simp only [risingFrom, Bool.and_eq_true, decide_eq_true_eq]; exact ⟨hl.1, risingFrom_putA k v (by omega) hl.2⟩

theorem risingFrom_filter (p : Nat × α → Bool) : ∀ {m : Nat} {l : List (Nat × α)}, risingFrom m l = true →
    risingFrom m (l.filter p) = true
  | _, [], _ => rfl
  | m, (j, w) :: l, hl => by
    simp only [risingFrom, Bool.and_eq_true, decide_eq_true_eq] at hl
    simp only [List.filter]
    split
    · simp only [risingFrom, Bool.and_eq_true, decide_eq_true_eq]; exact ⟨hl.1, risingFrom_filter p hl.2⟩
    · exact risingFrom_mono (by omega) (risingFrom_filter p hl.2)

theorem all_putA (q : α → Bool) (k : Nat) (v : α) (hv : q v = true) : ∀ {l : List (Nat × α)}, (l.all fun c => q c.2) = true →
    ((putA l k v).all fun c => q c.2) = true
  | [], _ => by simp [putA, hv]
  | (j, w) :: l, hl => by
    simp only [List.all_cons, Bool.and_eq_true] at hl
    simp only [putA]
    split
    · simp only [List.all_cons, Bool.and_eq_true]; exact ⟨hv, hl⟩
    · split
      · simp only [List.all_cons, Bool.and_eq_true]; exact ⟨hv, hl.2⟩
      · simp only [List.all_cons, Bool.and_eq_true]; exact ⟨hl.1, all_putA q k v hv hl.2⟩

/-- The canonical form of a sparse list with default `d`: keys strictly rising and no entry at its default. -/
theorem canonical_setA [DecidableEq α] (l : List (Nat × α)) (k : Nat) (v d : α) (hr : risingFrom 0 l = true)
    (ha : (l.all fun c => decide (c.2 ≠ d)) = true) :
    risingFrom 0 (setA l k v d) = true ∧ ((setA l k v d).all fun c => decide (c.2 ≠ d)) = true := by
  unfold setA
  split
  · exact ⟨risingFrom_filter _ hr, by rw [List.all_eq_true] at ha ⊢; intro c hc; exact ha c (List.mem_filter.mp hc).1⟩
  · next h => exact ⟨risingFrom_putA k v (Nat.zero_le k) hr, all_putA (fun x => decide (x ≠ d)) k v (by simpa using h) ha⟩

end Sys2Proof.Machine
end

