-- ==== Sys2Proof/Laws/State.lean ====
section
/-! SUPPORT. What each update of the state leaves alone, field by field, and what it writes: every fact holds by computation. -/

namespace Sys2Proof.Machine

/-- `setObj` changes no other field. -/
@[simp] theorem State.setObj_keeps (s : State) (i sub v : Nat) :
    (State.setObj s i sub v).pending = s.pending ∧ (State.setObj s i sub v).size = s.size ∧ (State.setObj s i sub v).now = s.now ∧
    (State.setObj s i sub v).runStart = s.runStart ∧ (State.setObj s i sub v).free = s.free ∧
    (State.setObj s i sub v).nextId = s.nextId ∧ (State.setObj s i sub v).wire = s.wire ∧
    (State.setObj s i sub v).keys = s.keys ∧ (State.setObj s i sub v).boot = s.boot ∧
    (State.setObj s i sub v).tod = s.tod ∧ (State.setObj s i sub v).twins = s.twins ∧
    (State.setObj s i sub v).ports = s.ports ∧ (State.setObj s i sub v).seqs = s.seqs ∧
    (State.setObj s i sub v).ops = s.ops ∧ (State.setObj s i sub v).waits = s.waits ∧
    (State.setObj s i sub v).frank = s.frank ∧ (State.setObj s i sub v).table = s.table ∧
    (State.setObj s i sub v).shelf = s.shelf ∧ (State.setObj s i sub v).mem = s.mem ∧
    (State.setObj s i sub v).cons = s.cons ∧ (State.setObj s i sub v).past = s.past ∧
    (State.setObj s i sub v).tal = s.tal ∧ (State.setObj s i sub v).partners = s.partners ∧
    (State.setObj s i sub v).bays = s.bays ∧ (State.setObj s i sub v).day = s.day ∧
    (State.setObj s i sub v).sessions = s.sessions ∧ (State.setObj s i sub v).dport = s.dport ∧
    (State.setObj s i sub v).events = s.events ∧ (State.setObj s i sub v).buses = s.buses ∧
    (State.setObj s i sub v).test = s.test ∧ (State.setObj s i sub v).health = s.health :=
  ⟨rfl, rfl, rfl, rfl, rfl, rfl, rfl, rfl, rfl, rfl, rfl, rfl, rfl, rfl, rfl, rfl, rfl, rfl, rfl, rfl, rfl, rfl, rfl, rfl, rfl, rfl, rfl, rfl, rfl, rfl, rfl⟩

/-- `bump` changes no other field. -/
@[simp] theorem State.bump_keeps (s : State) (i sub : Nat) (n : Nat) :
    (State.bump s i sub n).pending = s.pending ∧ (State.bump s i sub n).size = s.size ∧ (State.bump s i sub n).now = s.now ∧
    (State.bump s i sub n).runStart = s.runStart ∧ (State.bump s i sub n).free = s.free ∧
    (State.bump s i sub n).nextId = s.nextId ∧ (State.bump s i sub n).wire = s.wire ∧
    (State.bump s i sub n).keys = s.keys ∧ (State.bump s i sub n).boot = s.boot ∧
    (State.bump s i sub n).tod = s.tod ∧ (State.bump s i sub n).twins = s.twins ∧
    (State.bump s i sub n).ports = s.ports ∧ (State.bump s i sub n).seqs = s.seqs ∧
    (State.bump s i sub n).ops = s.ops ∧ (State.bump s i sub n).waits = s.waits ∧
    (State.bump s i sub n).frank = s.frank ∧ (State.bump s i sub n).table = s.table ∧
    (State.bump s i sub n).shelf = s.shelf ∧ (State.bump s i sub n).mem = s.mem ∧
    (State.bump s i sub n).cons = s.cons ∧ (State.bump s i sub n).past = s.past ∧
    (State.bump s i sub n).tal = s.tal ∧ (State.bump s i sub n).partners = s.partners ∧
    (State.bump s i sub n).bays = s.bays ∧ (State.bump s i sub n).day = s.day ∧
    (State.bump s i sub n).sessions = s.sessions ∧ (State.bump s i sub n).dport = s.dport ∧
    (State.bump s i sub n).events = s.events ∧ (State.bump s i sub n).buses = s.buses ∧
    (State.bump s i sub n).test = s.test ∧ (State.bump s i sub n).health = s.health :=
  ⟨rfl, rfl, rfl, rfl, rfl, rfl, rfl, rfl, rfl, rfl, rfl, rfl, rfl, rfl, rfl, rfl, rfl, rfl, rfl, rfl, rfl, rfl, rfl, rfl, rfl, rfl, rfl, rfl, rfl, rfl, rfl⟩

/-- `draw` changes no other field. -/
@[simp] theorem State.draw_keeps (s : State) :
    (State.draw s).2.pending = s.pending ∧ (State.draw s).2.size = s.size ∧ (State.draw s).2.now = s.now ∧
    (State.draw s).2.runStart = s.runStart ∧ (State.draw s).2.nextId = s.nextId ∧
    (State.draw s).2.wire = s.wire ∧ (State.draw s).2.objs = s.objs ∧
    (State.draw s).2.keys = s.keys ∧ (State.draw s).2.boot = s.boot ∧
    (State.draw s).2.tod = s.tod ∧ (State.draw s).2.twins = s.twins ∧
    (State.draw s).2.ports = s.ports ∧ (State.draw s).2.seqs = s.seqs ∧
    (State.draw s).2.ops = s.ops ∧ (State.draw s).2.waits = s.waits ∧
    (State.draw s).2.frank = s.frank ∧ (State.draw s).2.table = s.table ∧
    (State.draw s).2.shelf = s.shelf ∧ (State.draw s).2.mem = s.mem ∧
    (State.draw s).2.cons = s.cons ∧ (State.draw s).2.past = s.past ∧
    (State.draw s).2.tal = s.tal ∧ (State.draw s).2.partners = s.partners ∧
    (State.draw s).2.bays = s.bays ∧ (State.draw s).2.day = s.day ∧
    (State.draw s).2.sessions = s.sessions ∧ (State.draw s).2.dport = s.dport ∧
    (State.draw s).2.events = s.events ∧ (State.draw s).2.buses = s.buses ∧
    (State.draw s).2.test = s.test ∧ (State.draw s).2.health = s.health :=
  ⟨rfl, rfl, rfl, rfl, rfl, rfl, rfl, rfl, rfl, rfl, rfl, rfl, rfl, rfl, rfl, rfl, rfl, rfl, rfl, rfl, rfl, rfl, rfl, rfl, rfl, rfl, rfl, rfl, rfl, rfl, rfl⟩

/-- `setBay` changes no other field. -/
@[simp] theorem State.setBay_keeps (s : State) (b : Nat) (y : Bay) :
    (State.setBay s b y).pending = s.pending ∧ (State.setBay s b y).size = s.size ∧ (State.setBay s b y).now = s.now ∧
    (State.setBay s b y).runStart = s.runStart ∧ (State.setBay s b y).free = s.free ∧
    (State.setBay s b y).nextId = s.nextId ∧ (State.setBay s b y).wire = s.wire ∧
    (State.setBay s b y).objs = s.objs ∧ (State.setBay s b y).keys = s.keys ∧
    (State.setBay s b y).boot = s.boot ∧ (State.setBay s b y).tod = s.tod ∧
    (State.setBay s b y).twins = s.twins ∧ (State.setBay s b y).ports = s.ports ∧
    (State.setBay s b y).seqs = s.seqs ∧ (State.setBay s b y).ops = s.ops ∧
    (State.setBay s b y).waits = s.waits ∧ (State.setBay s b y).frank = s.frank ∧
    (State.setBay s b y).table = s.table ∧ (State.setBay s b y).shelf = s.shelf ∧
    (State.setBay s b y).mem = s.mem ∧ (State.setBay s b y).cons = s.cons ∧
    (State.setBay s b y).past = s.past ∧ (State.setBay s b y).tal = s.tal ∧
    (State.setBay s b y).partners = s.partners ∧ (State.setBay s b y).day = s.day ∧
    (State.setBay s b y).sessions = s.sessions ∧ (State.setBay s b y).dport = s.dport ∧
    (State.setBay s b y).events = s.events ∧ (State.setBay s b y).buses = s.buses ∧
    (State.setBay s b y).test = s.test ∧ (State.setBay s b y).health = s.health :=
  ⟨rfl, rfl, rfl, rfl, rfl, rfl, rfl, rfl, rfl, rfl, rfl, rfl, rfl, rfl, rfl, rfl, rfl, rfl, rfl, rfl, rfl, rfl, rfl, rfl, rfl, rfl, rfl, rfl, rfl, rfl, rfl⟩

/-- `modBay` changes no other field. -/
@[simp] theorem State.modBay_keeps (s : State) (b : Nat) (f : Bay → Bay) :
    (State.modBay s b f).pending = s.pending ∧ (State.modBay s b f).size = s.size ∧ (State.modBay s b f).now = s.now ∧
    (State.modBay s b f).runStart = s.runStart ∧ (State.modBay s b f).free = s.free ∧
    (State.modBay s b f).nextId = s.nextId ∧ (State.modBay s b f).wire = s.wire ∧
    (State.modBay s b f).objs = s.objs ∧ (State.modBay s b f).keys = s.keys ∧
    (State.modBay s b f).boot = s.boot ∧ (State.modBay s b f).tod = s.tod ∧
    (State.modBay s b f).twins = s.twins ∧ (State.modBay s b f).ports = s.ports ∧
    (State.modBay s b f).seqs = s.seqs ∧ (State.modBay s b f).ops = s.ops ∧
    (State.modBay s b f).waits = s.waits ∧ (State.modBay s b f).frank = s.frank ∧
    (State.modBay s b f).table = s.table ∧ (State.modBay s b f).shelf = s.shelf ∧
    (State.modBay s b f).mem = s.mem ∧ (State.modBay s b f).cons = s.cons ∧
    (State.modBay s b f).past = s.past ∧ (State.modBay s b f).tal = s.tal ∧
    (State.modBay s b f).partners = s.partners ∧ (State.modBay s b f).day = s.day ∧
    (State.modBay s b f).sessions = s.sessions ∧ (State.modBay s b f).dport = s.dport ∧
    (State.modBay s b f).events = s.events ∧ (State.modBay s b f).buses = s.buses ∧
    (State.modBay s b f).test = s.test ∧ (State.modBay s b f).health = s.health :=
  ⟨rfl, rfl, rfl, rfl, rfl, rfl, rfl, rfl, rfl, rfl, rfl, rfl, rfl, rfl, rfl, rfl, rfl, rfl, rfl, rfl, rfl, rfl, rfl, rfl, rfl, rfl, rfl, rfl, rfl, rfl, rfl⟩

/-- `setPort` changes no other field. -/
@[simp] theorem State.setPort_keeps (s : State) (p : Nat) (q : PortSt) :
    (State.setPort s p q).pending = s.pending ∧ (State.setPort s p q).size = s.size ∧ (State.setPort s p q).now = s.now ∧
    (State.setPort s p q).runStart = s.runStart ∧ (State.setPort s p q).free = s.free ∧
    (State.setPort s p q).nextId = s.nextId ∧ (State.setPort s p q).wire = s.wire ∧
    (State.setPort s p q).objs = s.objs ∧ (State.setPort s p q).keys = s.keys ∧
    (State.setPort s p q).boot = s.boot ∧ (State.setPort s p q).tod = s.tod ∧
    (State.setPort s p q).twins = s.twins ∧ (State.setPort s p q).seqs = s.seqs ∧
    (State.setPort s p q).ops = s.ops ∧ (State.setPort s p q).waits = s.waits ∧
    (State.setPort s p q).frank = s.frank ∧ (State.setPort s p q).table = s.table ∧
    (State.setPort s p q).shelf = s.shelf ∧ (State.setPort s p q).mem = s.mem ∧
    (State.setPort s p q).cons = s.cons ∧ (State.setPort s p q).past = s.past ∧
    (State.setPort s p q).tal = s.tal ∧ (State.setPort s p q).partners = s.partners ∧
    (State.setPort s p q).bays = s.bays ∧ (State.setPort s p q).day = s.day ∧
    (State.setPort s p q).sessions = s.sessions ∧ (State.setPort s p q).dport = s.dport ∧
    (State.setPort s p q).events = s.events ∧ (State.setPort s p q).buses = s.buses ∧
    (State.setPort s p q).test = s.test ∧ (State.setPort s p q).health = s.health :=
  ⟨rfl, rfl, rfl, rfl, rfl, rfl, rfl, rfl, rfl, rfl, rfl, rfl, rfl, rfl, rfl, rfl, rfl, rfl, rfl, rfl, rfl, rfl, rfl, rfl, rfl, rfl, rfl, rfl, rfl, rfl, rfl⟩

/-- `emit` changes no other field. -/
@[simp] theorem State.emit_keeps (s : State) (w : Wire) :
    (State.emit s w).pending = s.pending ∧ (State.emit s w).size = s.size ∧ (State.emit s w).now = s.now ∧
    (State.emit s w).runStart = s.runStart ∧ (State.emit s w).free = s.free ∧
    (State.emit s w).nextId = s.nextId ∧ (State.emit s w).objs = s.objs ∧
    (State.emit s w).keys = s.keys ∧ (State.emit s w).boot = s.boot ∧
    (State.emit s w).tod = s.tod ∧ (State.emit s w).twins = s.twins ∧
    (State.emit s w).ports = s.ports ∧ (State.emit s w).seqs = s.seqs ∧
    (State.emit s w).ops = s.ops ∧ (State.emit s w).waits = s.waits ∧
    (State.emit s w).frank = s.frank ∧ (State.emit s w).table = s.table ∧
    (State.emit s w).shelf = s.shelf ∧ (State.emit s w).mem = s.mem ∧
    (State.emit s w).cons = s.cons ∧ (State.emit s w).past = s.past ∧
    (State.emit s w).tal = s.tal ∧ (State.emit s w).partners = s.partners ∧
    (State.emit s w).bays = s.bays ∧ (State.emit s w).day = s.day ∧
    (State.emit s w).sessions = s.sessions ∧ (State.emit s w).dport = s.dport ∧
    (State.emit s w).events = s.events ∧ (State.emit s w).buses = s.buses ∧
    (State.emit s w).test = s.test ∧ (State.emit s w).health = s.health :=
  ⟨rfl, rfl, rfl, rfl, rfl, rfl, rfl, rfl, rfl, rfl, rfl, rfl, rfl, rfl, rfl, rfl, rfl, rfl, rfl, rfl, rfl, rfl, rfl, rfl, rfl, rfl, rfl, rfl, rfl, rfl, rfl⟩

/-- `setStream` changes no other field. -/
@[simp] theorem State.setStream_keeps (s : State) (n : Nat) (x : Stream) :
    (State.setStream s n x).pending = s.pending ∧ (State.setStream s n x).size = s.size ∧ (State.setStream s n x).now = s.now ∧
    (State.setStream s n x).runStart = s.runStart ∧ (State.setStream s n x).free = s.free ∧
    (State.setStream s n x).nextId = s.nextId ∧ (State.setStream s n x).wire = s.wire ∧
    (State.setStream s n x).objs = s.objs ∧ (State.setStream s n x).keys = s.keys ∧
    (State.setStream s n x).boot = s.boot ∧ (State.setStream s n x).tod = s.tod ∧
    (State.setStream s n x).twins = s.twins ∧ (State.setStream s n x).ports = s.ports ∧
    (State.setStream s n x).seqs = s.seqs ∧ (State.setStream s n x).ops = s.ops ∧
    (State.setStream s n x).waits = s.waits ∧ (State.setStream s n x).frank = s.frank ∧
    (State.setStream s n x).table = s.table ∧ (State.setStream s n x).shelf = s.shelf ∧
    (State.setStream s n x).mem = s.mem ∧ (State.setStream s n x).cons = s.cons ∧
    (State.setStream s n x).past = s.past ∧ (State.setStream s n x).tal = s.tal ∧
    (State.setStream s n x).partners = s.partners ∧ (State.setStream s n x).bays = s.bays ∧
    (State.setStream s n x).sessions = s.sessions ∧ (State.setStream s n x).dport = s.dport ∧
    (State.setStream s n x).events = s.events ∧ (State.setStream s n x).buses = s.buses ∧
    (State.setStream s n x).test = s.test ∧ (State.setStream s n x).health = s.health :=
  ⟨rfl, rfl, rfl, rfl, rfl, rfl, rfl, rfl, rfl, rfl, rfl, rfl, rfl, rfl, rfl, rfl, rfl, rfl, rfl, rfl, rfl, rfl, rfl, rfl, rfl, rfl, rfl, rfl, rfl, rfl, rfl⟩

/-- `setSession` changes no other field. -/
@[simp] theorem State.setSession_keeps (s : State) (x : Session) :
    (State.setSession s x).pending = s.pending ∧ (State.setSession s x).size = s.size ∧ (State.setSession s x).now = s.now ∧
    (State.setSession s x).runStart = s.runStart ∧ (State.setSession s x).free = s.free ∧
    (State.setSession s x).nextId = s.nextId ∧ (State.setSession s x).wire = s.wire ∧
    (State.setSession s x).objs = s.objs ∧ (State.setSession s x).keys = s.keys ∧
    (State.setSession s x).boot = s.boot ∧ (State.setSession s x).tod = s.tod ∧
    (State.setSession s x).twins = s.twins ∧ (State.setSession s x).ports = s.ports ∧
    (State.setSession s x).seqs = s.seqs ∧ (State.setSession s x).ops = s.ops ∧
    (State.setSession s x).waits = s.waits ∧ (State.setSession s x).frank = s.frank ∧
    (State.setSession s x).table = s.table ∧ (State.setSession s x).shelf = s.shelf ∧
    (State.setSession s x).mem = s.mem ∧ (State.setSession s x).cons = s.cons ∧
    (State.setSession s x).past = s.past ∧ (State.setSession s x).tal = s.tal ∧
    (State.setSession s x).partners = s.partners ∧ (State.setSession s x).bays = s.bays ∧
    (State.setSession s x).day = s.day ∧ (State.setSession s x).dport = s.dport ∧
    (State.setSession s x).events = s.events ∧ (State.setSession s x).buses = s.buses ∧
    (State.setSession s x).test = s.test ∧ (State.setSession s x).health = s.health :=
  ⟨rfl, rfl, rfl, rfl, rfl, rfl, rfl, rfl, rfl, rfl, rfl, rfl, rfl, rfl, rfl, rfl, rfl, rfl, rfl, rfl, rfl, rfl, rfl, rfl, rfl, rfl, rfl, rfl, rfl, rfl, rfl⟩

/-- `setSdo` changes no other field. -/
@[simp] theorem State.setSdo_keeps (s : State) (ch : Nat) (x : Option Sdo) :
    (State.setSdo s ch x).pending = s.pending ∧ (State.setSdo s ch x).size = s.size ∧ (State.setSdo s ch x).now = s.now ∧
    (State.setSdo s ch x).runStart = s.runStart ∧ (State.setSdo s ch x).free = s.free ∧
    (State.setSdo s ch x).nextId = s.nextId ∧ (State.setSdo s ch x).wire = s.wire ∧
    (State.setSdo s ch x).objs = s.objs ∧ (State.setSdo s ch x).keys = s.keys ∧
    (State.setSdo s ch x).boot = s.boot ∧ (State.setSdo s ch x).tod = s.tod ∧
    (State.setSdo s ch x).twins = s.twins ∧ (State.setSdo s ch x).ports = s.ports ∧
    (State.setSdo s ch x).seqs = s.seqs ∧ (State.setSdo s ch x).ops = s.ops ∧
    (State.setSdo s ch x).waits = s.waits ∧ (State.setSdo s ch x).frank = s.frank ∧
    (State.setSdo s ch x).table = s.table ∧ (State.setSdo s ch x).shelf = s.shelf ∧
    (State.setSdo s ch x).mem = s.mem ∧ (State.setSdo s ch x).cons = s.cons ∧
    (State.setSdo s ch x).past = s.past ∧ (State.setSdo s ch x).tal = s.tal ∧
    (State.setSdo s ch x).partners = s.partners ∧ (State.setSdo s ch x).bays = s.bays ∧
    (State.setSdo s ch x).day = s.day ∧ (State.setSdo s ch x).sessions = s.sessions ∧
    (State.setSdo s ch x).dport = s.dport ∧ (State.setSdo s ch x).events = s.events ∧
    (State.setSdo s ch x).test = s.test ∧ (State.setSdo s ch x).health = s.health :=
  ⟨rfl, rfl, rfl, rfl, rfl, rfl, rfl, rfl, rfl, rfl, rfl, rfl, rfl, rfl, rfl, rfl, rfl, rfl, rfl, rfl, rfl, rfl, rfl, rfl, rfl, rfl, rfl, rfl, rfl, rfl, rfl⟩

/-- `setEntry` changes no other field. -/
@[simp] theorem State.setEntry_keeps (s : State) (i : Nat) (e : Entry) :
    (State.setEntry s i e).pending = s.pending ∧ (State.setEntry s i e).size = s.size ∧ (State.setEntry s i e).now = s.now ∧
    (State.setEntry s i e).runStart = s.runStart ∧ (State.setEntry s i e).free = s.free ∧
    (State.setEntry s i e).nextId = s.nextId ∧ (State.setEntry s i e).wire = s.wire ∧
    (State.setEntry s i e).objs = s.objs ∧ (State.setEntry s i e).keys = s.keys ∧
    (State.setEntry s i e).boot = s.boot ∧ (State.setEntry s i e).tod = s.tod ∧
    (State.setEntry s i e).twins = s.twins ∧ (State.setEntry s i e).ports = s.ports ∧
    (State.setEntry s i e).seqs = s.seqs ∧ (State.setEntry s i e).ops = s.ops ∧
    (State.setEntry s i e).waits = s.waits ∧ (State.setEntry s i e).frank = s.frank ∧
    (State.setEntry s i e).table = s.table ∧ (State.setEntry s i e).mem = s.mem ∧
    (State.setEntry s i e).cons = s.cons ∧ (State.setEntry s i e).past = s.past ∧
    (State.setEntry s i e).tal = s.tal ∧ (State.setEntry s i e).partners = s.partners ∧
    (State.setEntry s i e).bays = s.bays ∧ (State.setEntry s i e).day = s.day ∧
    (State.setEntry s i e).sessions = s.sessions ∧ (State.setEntry s i e).dport = s.dport ∧
    (State.setEntry s i e).events = s.events ∧ (State.setEntry s i e).buses = s.buses ∧
    (State.setEntry s i e).test = s.test ∧ (State.setEntry s i e).health = s.health :=
  ⟨rfl, rfl, rfl, rfl, rfl, rfl, rfl, rfl, rfl, rfl, rfl, rfl, rfl, rfl, rfl, rfl, rfl, rfl, rfl, rfl, rfl, rfl, rfl, rfl, rfl, rfl, rfl, rfl, rfl, rfl, rfl⟩

/-- `setValid` changes no other field. -/
@[simp] theorem State.setValid_keeps (s : State) (blk : Nat) :
    (State.setValid s blk).pending = s.pending ∧ (State.setValid s blk).size = s.size ∧ (State.setValid s blk).now = s.now ∧
    (State.setValid s blk).runStart = s.runStart ∧ (State.setValid s blk).free = s.free ∧
    (State.setValid s blk).nextId = s.nextId ∧ (State.setValid s blk).wire = s.wire ∧
    (State.setValid s blk).objs = s.objs ∧ (State.setValid s blk).keys = s.keys ∧
    (State.setValid s blk).boot = s.boot ∧ (State.setValid s blk).tod = s.tod ∧
    (State.setValid s blk).twins = s.twins ∧ (State.setValid s blk).ports = s.ports ∧
    (State.setValid s blk).seqs = s.seqs ∧ (State.setValid s blk).ops = s.ops ∧
    (State.setValid s blk).waits = s.waits ∧ (State.setValid s blk).frank = s.frank ∧
    (State.setValid s blk).table = s.table ∧ (State.setValid s blk).mem = s.mem ∧
    (State.setValid s blk).cons = s.cons ∧ (State.setValid s blk).past = s.past ∧
    (State.setValid s blk).tal = s.tal ∧ (State.setValid s blk).partners = s.partners ∧
    (State.setValid s blk).bays = s.bays ∧ (State.setValid s blk).day = s.day ∧
    (State.setValid s blk).sessions = s.sessions ∧ (State.setValid s blk).dport = s.dport ∧
    (State.setValid s blk).events = s.events ∧ (State.setValid s blk).buses = s.buses ∧
    (State.setValid s blk).test = s.test ∧ (State.setValid s blk).health = s.health :=
  ⟨rfl, rfl, rfl, rfl, rfl, rfl, rfl, rfl, rfl, rfl, rfl, rfl, rfl, rfl, rfl, rfl, rfl, rfl, rfl, rfl, rfl, rfl, rfl, rfl, rfl, rfl, rfl, rfl, rfl, rfl, rfl⟩

/-- `setCon` changes no other field. -/
@[simp] theorem State.setCon_keeps (s : State) (c : Con) :
    (State.setCon s c).pending = s.pending ∧ (State.setCon s c).size = s.size ∧ (State.setCon s c).now = s.now ∧
    (State.setCon s c).runStart = s.runStart ∧ (State.setCon s c).free = s.free ∧
    (State.setCon s c).nextId = s.nextId ∧ (State.setCon s c).wire = s.wire ∧
    (State.setCon s c).objs = s.objs ∧ (State.setCon s c).keys = s.keys ∧
    (State.setCon s c).boot = s.boot ∧ (State.setCon s c).tod = s.tod ∧
    (State.setCon s c).twins = s.twins ∧ (State.setCon s c).ports = s.ports ∧
    (State.setCon s c).seqs = s.seqs ∧ (State.setCon s c).ops = s.ops ∧
    (State.setCon s c).waits = s.waits ∧ (State.setCon s c).frank = s.frank ∧
    (State.setCon s c).table = s.table ∧ (State.setCon s c).shelf = s.shelf ∧
    (State.setCon s c).mem = s.mem ∧ (State.setCon s c).past = s.past ∧
    (State.setCon s c).tal = s.tal ∧ (State.setCon s c).partners = s.partners ∧
    (State.setCon s c).bays = s.bays ∧ (State.setCon s c).day = s.day ∧
    (State.setCon s c).sessions = s.sessions ∧ (State.setCon s c).dport = s.dport ∧
    (State.setCon s c).events = s.events ∧ (State.setCon s c).buses = s.buses ∧
    (State.setCon s c).test = s.test ∧ (State.setCon s c).health = s.health :=
  ⟨rfl, rfl, rfl, rfl, rfl, rfl, rfl, rfl, rfl, rfl, rfl, rfl, rfl, rfl, rfl, rfl, rfl, rfl, rfl, rfl, rfl, rfl, rfl, rfl, rfl, rfl, rfl, rfl, rfl, rfl, rfl⟩

/-- `modCon` changes no other field. -/
@[simp] theorem State.modCon_keeps (s : State) (cid : Nat) (f : Con → Con) :
    (State.modCon s cid f).pending = s.pending ∧ (State.modCon s cid f).size = s.size ∧ (State.modCon s cid f).now = s.now ∧
    (State.modCon s cid f).runStart = s.runStart ∧ (State.modCon s cid f).free = s.free ∧
    (State.modCon s cid f).nextId = s.nextId ∧ (State.modCon s cid f).wire = s.wire ∧
    (State.modCon s cid f).objs = s.objs ∧ (State.modCon s cid f).keys = s.keys ∧
    (State.modCon s cid f).boot = s.boot ∧ (State.modCon s cid f).tod = s.tod ∧
    (State.modCon s cid f).twins = s.twins ∧ (State.modCon s cid f).ports = s.ports ∧
    (State.modCon s cid f).seqs = s.seqs ∧ (State.modCon s cid f).ops = s.ops ∧
    (State.modCon s cid f).waits = s.waits ∧ (State.modCon s cid f).frank = s.frank ∧
    (State.modCon s cid f).table = s.table ∧ (State.modCon s cid f).shelf = s.shelf ∧
    (State.modCon s cid f).mem = s.mem ∧ (State.modCon s cid f).past = s.past ∧
    (State.modCon s cid f).tal = s.tal ∧ (State.modCon s cid f).partners = s.partners ∧
    (State.modCon s cid f).bays = s.bays ∧ (State.modCon s cid f).day = s.day ∧
    (State.modCon s cid f).sessions = s.sessions ∧ (State.modCon s cid f).dport = s.dport ∧
    (State.modCon s cid f).events = s.events ∧ (State.modCon s cid f).buses = s.buses ∧
    (State.modCon s cid f).test = s.test ∧ (State.modCon s cid f).health = s.health :=
  ⟨rfl, rfl, rfl, rfl, rfl, rfl, rfl, rfl, rfl, rfl, rfl, rfl, rfl, rfl, rfl, rfl, rfl, rfl, rfl, rfl, rfl, rfl, rfl, rfl, rfl, rfl, rfl, rfl, rfl, rfl, rfl⟩

/-- `setTally` changes no other field. -/
@[simp] theorem State.setTally_keeps (s : State) (n : Nat) (t : Tally) :
    (State.setTally s n t).pending = s.pending ∧ (State.setTally s n t).size = s.size ∧ (State.setTally s n t).now = s.now ∧
    (State.setTally s n t).runStart = s.runStart ∧ (State.setTally s n t).free = s.free ∧
    (State.setTally s n t).nextId = s.nextId ∧ (State.setTally s n t).wire = s.wire ∧
    (State.setTally s n t).objs = s.objs ∧ (State.setTally s n t).keys = s.keys ∧
    (State.setTally s n t).boot = s.boot ∧ (State.setTally s n t).tod = s.tod ∧
    (State.setTally s n t).twins = s.twins ∧ (State.setTally s n t).ports = s.ports ∧
    (State.setTally s n t).seqs = s.seqs ∧ (State.setTally s n t).ops = s.ops ∧
    (State.setTally s n t).waits = s.waits ∧ (State.setTally s n t).frank = s.frank ∧
    (State.setTally s n t).table = s.table ∧ (State.setTally s n t).shelf = s.shelf ∧
    (State.setTally s n t).mem = s.mem ∧ (State.setTally s n t).cons = s.cons ∧
    (State.setTally s n t).past = s.past ∧ (State.setTally s n t).partners = s.partners ∧
    (State.setTally s n t).bays = s.bays ∧ (State.setTally s n t).day = s.day ∧
    (State.setTally s n t).sessions = s.sessions ∧ (State.setTally s n t).dport = s.dport ∧
    (State.setTally s n t).events = s.events ∧ (State.setTally s n t).buses = s.buses ∧
    (State.setTally s n t).test = s.test ∧ (State.setTally s n t).health = s.health :=
  ⟨rfl, rfl, rfl, rfl, rfl, rfl, rfl, rfl, rfl, rfl, rfl, rfl, rfl, rfl, rfl, rfl, rfl, rfl, rfl, rfl, rfl, rfl, rfl, rfl, rfl, rfl, rfl, rfl, rfl, rfl, rfl⟩

/-- `modMem` changes no other field. -/
@[simp] theorem State.modMem_keeps (s : State) (f : Mem → Mem) :
    (State.modMem s f).pending = s.pending ∧ (State.modMem s f).size = s.size ∧ (State.modMem s f).now = s.now ∧
    (State.modMem s f).runStart = s.runStart ∧ (State.modMem s f).free = s.free ∧
    (State.modMem s f).nextId = s.nextId ∧ (State.modMem s f).wire = s.wire ∧
    (State.modMem s f).objs = s.objs ∧ (State.modMem s f).keys = s.keys ∧
    (State.modMem s f).boot = s.boot ∧ (State.modMem s f).tod = s.tod ∧
    (State.modMem s f).twins = s.twins ∧ (State.modMem s f).ports = s.ports ∧
    (State.modMem s f).seqs = s.seqs ∧ (State.modMem s f).ops = s.ops ∧
    (State.modMem s f).waits = s.waits ∧ (State.modMem s f).frank = s.frank ∧
    (State.modMem s f).table = s.table ∧ (State.modMem s f).shelf = s.shelf ∧
    (State.modMem s f).cons = s.cons ∧ (State.modMem s f).past = s.past ∧
    (State.modMem s f).tal = s.tal ∧ (State.modMem s f).partners = s.partners ∧
    (State.modMem s f).bays = s.bays ∧ (State.modMem s f).day = s.day ∧
    (State.modMem s f).sessions = s.sessions ∧ (State.modMem s f).dport = s.dport ∧
    (State.modMem s f).events = s.events ∧ (State.modMem s f).buses = s.buses ∧
    (State.modMem s f).test = s.test ∧ (State.modMem s f).health = s.health :=
  ⟨rfl, rfl, rfl, rfl, rfl, rfl, rfl, rfl, rfl, rfl, rfl, rfl, rfl, rfl, rfl, rfl, rfl, rfl, rfl, rfl, rfl, rfl, rfl, rfl, rfl, rfl, rfl, rfl, rfl, rfl, rfl⟩

/-- `modOp` changes no other field. -/
@[simp] theorem State.modOp_keeps (s : State) (id : Nat) (f : Op → Op) :
    (State.modOp s id f).pending = s.pending ∧ (State.modOp s id f).size = s.size ∧ (State.modOp s id f).now = s.now ∧
    (State.modOp s id f).runStart = s.runStart ∧ (State.modOp s id f).free = s.free ∧
    (State.modOp s id f).nextId = s.nextId ∧ (State.modOp s id f).wire = s.wire ∧
    (State.modOp s id f).objs = s.objs ∧ (State.modOp s id f).keys = s.keys ∧
    (State.modOp s id f).boot = s.boot ∧ (State.modOp s id f).tod = s.tod ∧
    (State.modOp s id f).twins = s.twins ∧ (State.modOp s id f).ports = s.ports ∧
    (State.modOp s id f).seqs = s.seqs ∧ (State.modOp s id f).waits = s.waits ∧
    (State.modOp s id f).frank = s.frank ∧ (State.modOp s id f).table = s.table ∧
    (State.modOp s id f).shelf = s.shelf ∧ (State.modOp s id f).mem = s.mem ∧
    (State.modOp s id f).cons = s.cons ∧ (State.modOp s id f).past = s.past ∧
    (State.modOp s id f).tal = s.tal ∧ (State.modOp s id f).partners = s.partners ∧
    (State.modOp s id f).bays = s.bays ∧ (State.modOp s id f).day = s.day ∧
    (State.modOp s id f).sessions = s.sessions ∧ (State.modOp s id f).dport = s.dport ∧
    (State.modOp s id f).events = s.events ∧ (State.modOp s id f).buses = s.buses ∧
    (State.modOp s id f).test = s.test ∧ (State.modOp s id f).health = s.health :=
  ⟨rfl, rfl, rfl, rfl, rfl, rfl, rfl, rfl, rfl, rfl, rfl, rfl, rfl, rfl, rfl, rfl, rfl, rfl, rfl, rfl, rfl, rfl, rfl, rfl, rfl, rfl, rfl, rfl, rfl, rfl, rfl⟩

/-- `newId` changes no other field. -/
@[simp] theorem State.newId_keeps (s : State) :
    (State.newId s).2.pending = s.pending ∧ (State.newId s).2.size = s.size ∧ (State.newId s).2.now = s.now ∧
    (State.newId s).2.runStart = s.runStart ∧ (State.newId s).2.free = s.free ∧
    (State.newId s).2.wire = s.wire ∧ (State.newId s).2.objs = s.objs ∧
    (State.newId s).2.keys = s.keys ∧ (State.newId s).2.boot = s.boot ∧
    (State.newId s).2.tod = s.tod ∧ (State.newId s).2.twins = s.twins ∧
    (State.newId s).2.ports = s.ports ∧ (State.newId s).2.seqs = s.seqs ∧
    (State.newId s).2.ops = s.ops ∧ (State.newId s).2.waits = s.waits ∧
    (State.newId s).2.frank = s.frank ∧ (State.newId s).2.table = s.table ∧
    (State.newId s).2.shelf = s.shelf ∧ (State.newId s).2.mem = s.mem ∧
    (State.newId s).2.cons = s.cons ∧ (State.newId s).2.past = s.past ∧
    (State.newId s).2.tal = s.tal ∧ (State.newId s).2.partners = s.partners ∧
    (State.newId s).2.bays = s.bays ∧ (State.newId s).2.day = s.day ∧
    (State.newId s).2.sessions = s.sessions ∧ (State.newId s).2.dport = s.dport ∧
    (State.newId s).2.events = s.events ∧ (State.newId s).2.buses = s.buses ∧
    (State.newId s).2.test = s.test ∧ (State.newId s).2.health = s.health :=
  ⟨rfl, rfl, rfl, rfl, rfl, rfl, rfl, rfl, rfl, rfl, rfl, rfl, rfl, rfl, rfl, rfl, rfl, rfl, rfl, rfl, rfl, rfl, rfl, rfl, rfl, rfl, rfl, rfl, rfl, rfl, rfl⟩

/-- `addOp` changes no other field. -/
@[simp] theorem State.addOp_keeps (s : State) (o : Op) :
    (State.addOp s o).pending = s.pending ∧ (State.addOp s o).size = s.size ∧ (State.addOp s o).now = s.now ∧
    (State.addOp s o).runStart = s.runStart ∧ (State.addOp s o).free = s.free ∧
    (State.addOp s o).nextId = s.nextId ∧ (State.addOp s o).wire = s.wire ∧
    (State.addOp s o).objs = s.objs ∧ (State.addOp s o).keys = s.keys ∧
    (State.addOp s o).boot = s.boot ∧ (State.addOp s o).tod = s.tod ∧
    (State.addOp s o).twins = s.twins ∧ (State.addOp s o).ports = s.ports ∧
    (State.addOp s o).seqs = s.seqs ∧ (State.addOp s o).waits = s.waits ∧
    (State.addOp s o).frank = s.frank ∧ (State.addOp s o).table = s.table ∧
    (State.addOp s o).shelf = s.shelf ∧ (State.addOp s o).mem = s.mem ∧
    (State.addOp s o).cons = s.cons ∧ (State.addOp s o).past = s.past ∧
    (State.addOp s o).tal = s.tal ∧ (State.addOp s o).partners = s.partners ∧
    (State.addOp s o).bays = s.bays ∧ (State.addOp s o).day = s.day ∧
    (State.addOp s o).sessions = s.sessions ∧ (State.addOp s o).dport = s.dport ∧
    (State.addOp s o).events = s.events ∧ (State.addOp s o).buses = s.buses ∧
    (State.addOp s o).test = s.test ∧ (State.addOp s o).health = s.health :=
  ⟨rfl, rfl, rfl, rfl, rfl, rfl, rfl, rfl, rfl, rfl, rfl, rfl, rfl, rfl, rfl, rfl, rfl, rfl, rfl, rfl, rfl, rfl, rfl, rfl, rfl, rfl, rfl, rfl, rfl, rfl, rfl⟩

/-- `uncover` changes no other field. -/
@[simp] theorem State.uncover_keeps (s : State) (id : Nat) :
    (State.uncover s id).pending = s.pending ∧ (State.uncover s id).size = s.size ∧ (State.uncover s id).now = s.now ∧
    (State.uncover s id).runStart = s.runStart ∧ (State.uncover s id).free = s.free ∧
    (State.uncover s id).nextId = s.nextId ∧ (State.uncover s id).wire = s.wire ∧
    (State.uncover s id).objs = s.objs ∧ (State.uncover s id).keys = s.keys ∧
    (State.uncover s id).boot = s.boot ∧ (State.uncover s id).tod = s.tod ∧
    (State.uncover s id).twins = s.twins ∧ (State.uncover s id).ports = s.ports ∧
    (State.uncover s id).seqs = s.seqs ∧ (State.uncover s id).ops = s.ops ∧
    (State.uncover s id).frank = s.frank ∧ (State.uncover s id).table = s.table ∧
    (State.uncover s id).shelf = s.shelf ∧ (State.uncover s id).mem = s.mem ∧
    (State.uncover s id).cons = s.cons ∧ (State.uncover s id).past = s.past ∧
    (State.uncover s id).tal = s.tal ∧ (State.uncover s id).partners = s.partners ∧
    (State.uncover s id).bays = s.bays ∧ (State.uncover s id).day = s.day ∧
    (State.uncover s id).sessions = s.sessions ∧ (State.uncover s id).dport = s.dport ∧
    (State.uncover s id).events = s.events ∧ (State.uncover s id).buses = s.buses ∧
    (State.uncover s id).test = s.test ∧ (State.uncover s id).health = s.health :=
  ⟨rfl, rfl, rfl, rfl, rfl, rfl, rfl, rfl, rfl, rfl, rfl, rfl, rfl, rfl, rfl, rfl, rfl, rfl, rfl, rfl, rfl, rfl, rfl, rfl, rfl, rfl, rfl, rfl, rfl, rfl, rfl⟩

/-- `setPartner` changes no other field. -/
@[simp] theorem State.setPartner_keeps (s : State) (p : Partner) :
    (State.setPartner s p).pending = s.pending ∧ (State.setPartner s p).size = s.size ∧ (State.setPartner s p).now = s.now ∧
    (State.setPartner s p).runStart = s.runStart ∧ (State.setPartner s p).free = s.free ∧
    (State.setPartner s p).nextId = s.nextId ∧ (State.setPartner s p).wire = s.wire ∧
    (State.setPartner s p).objs = s.objs ∧ (State.setPartner s p).keys = s.keys ∧
    (State.setPartner s p).boot = s.boot ∧ (State.setPartner s p).tod = s.tod ∧
    (State.setPartner s p).twins = s.twins ∧ (State.setPartner s p).ports = s.ports ∧
    (State.setPartner s p).seqs = s.seqs ∧ (State.setPartner s p).ops = s.ops ∧
    (State.setPartner s p).waits = s.waits ∧ (State.setPartner s p).frank = s.frank ∧
    (State.setPartner s p).table = s.table ∧ (State.setPartner s p).shelf = s.shelf ∧
    (State.setPartner s p).mem = s.mem ∧ (State.setPartner s p).cons = s.cons ∧
    (State.setPartner s p).past = s.past ∧ (State.setPartner s p).tal = s.tal ∧
    (State.setPartner s p).bays = s.bays ∧ (State.setPartner s p).day = s.day ∧
    (State.setPartner s p).sessions = s.sessions ∧ (State.setPartner s p).dport = s.dport ∧
    (State.setPartner s p).events = s.events ∧ (State.setPartner s p).buses = s.buses ∧
    (State.setPartner s p).test = s.test ∧ (State.setPartner s p).health = s.health :=
  ⟨rfl, rfl, rfl, rfl, rfl, rfl, rfl, rfl, rfl, rfl, rfl, rfl, rfl, rfl, rfl, rfl, rfl, rfl, rfl, rfl, rfl, rfl, rfl, rfl, rfl, rfl, rfl, rfl, rfl, rfl, rfl⟩

/-- `modTwins` changes no other field. -/
@[simp] theorem State.modTwins_keeps (s : State) (f : Twins → Twins) :
    (State.modTwins s f).pending = s.pending ∧ (State.modTwins s f).size = s.size ∧ (State.modTwins s f).now = s.now ∧
    (State.modTwins s f).runStart = s.runStart ∧ (State.modTwins s f).free = s.free ∧
    (State.modTwins s f).nextId = s.nextId ∧ (State.modTwins s f).wire = s.wire ∧
    (State.modTwins s f).objs = s.objs ∧ (State.modTwins s f).keys = s.keys ∧
    (State.modTwins s f).boot = s.boot ∧ (State.modTwins s f).tod = s.tod ∧
    (State.modTwins s f).ports = s.ports ∧ (State.modTwins s f).seqs = s.seqs ∧
    (State.modTwins s f).ops = s.ops ∧ (State.modTwins s f).waits = s.waits ∧
    (State.modTwins s f).frank = s.frank ∧ (State.modTwins s f).table = s.table ∧
    (State.modTwins s f).shelf = s.shelf ∧ (State.modTwins s f).mem = s.mem ∧
    (State.modTwins s f).cons = s.cons ∧ (State.modTwins s f).past = s.past ∧
    (State.modTwins s f).tal = s.tal ∧ (State.modTwins s f).partners = s.partners ∧
    (State.modTwins s f).bays = s.bays ∧ (State.modTwins s f).day = s.day ∧
    (State.modTwins s f).sessions = s.sessions ∧ (State.modTwins s f).dport = s.dport ∧
    (State.modTwins s f).events = s.events ∧ (State.modTwins s f).buses = s.buses ∧
    (State.modTwins s f).test = s.test ∧ (State.modTwins s f).health = s.health :=
  ⟨rfl, rfl, rfl, rfl, rfl, rfl, rfl, rfl, rfl, rfl, rfl, rfl, rfl, rfl, rfl, rfl, rfl, rfl, rfl, rfl, rfl, rfl, rfl, rfl, rfl, rfl, rfl, rfl, rfl, rfl, rfl⟩

/-- `modShelf` changes no other field. -/
@[simp] theorem State.modShelf_keeps (s : State) (f : Shelf → Shelf) :
    (State.modShelf s f).pending = s.pending ∧ (State.modShelf s f).size = s.size ∧ (State.modShelf s f).now = s.now ∧
    (State.modShelf s f).runStart = s.runStart ∧ (State.modShelf s f).free = s.free ∧
    (State.modShelf s f).nextId = s.nextId ∧ (State.modShelf s f).wire = s.wire ∧
    (State.modShelf s f).objs = s.objs ∧ (State.modShelf s f).keys = s.keys ∧
    (State.modShelf s f).boot = s.boot ∧ (State.modShelf s f).tod = s.tod ∧
    (State.modShelf s f).twins = s.twins ∧ (State.modShelf s f).ports = s.ports ∧
    (State.modShelf s f).seqs = s.seqs ∧ (State.modShelf s f).ops = s.ops ∧
    (State.modShelf s f).waits = s.waits ∧ (State.modShelf s f).frank = s.frank ∧
    (State.modShelf s f).table = s.table ∧ (State.modShelf s f).mem = s.mem ∧
    (State.modShelf s f).cons = s.cons ∧ (State.modShelf s f).past = s.past ∧
    (State.modShelf s f).tal = s.tal ∧ (State.modShelf s f).partners = s.partners ∧
    (State.modShelf s f).bays = s.bays ∧ (State.modShelf s f).day = s.day ∧
    (State.modShelf s f).sessions = s.sessions ∧ (State.modShelf s f).dport = s.dport ∧
    (State.modShelf s f).events = s.events ∧ (State.modShelf s f).buses = s.buses ∧
    (State.modShelf s f).test = s.test ∧ (State.modShelf s f).health = s.health :=
  ⟨rfl, rfl, rfl, rfl, rfl, rfl, rfl, rfl, rfl, rfl, rfl, rfl, rfl, rfl, rfl, rfl, rfl, rfl, rfl, rfl, rfl, rfl, rfl, rfl, rfl, rfl, rfl, rfl, rfl, rfl, rfl⟩

/-- `modTable` changes no other field. -/
@[simp] theorem State.modTable_keeps (s : State) (f : Timetable → Timetable) :
    (State.modTable s f).pending = s.pending ∧ (State.modTable s f).size = s.size ∧ (State.modTable s f).now = s.now ∧
    (State.modTable s f).runStart = s.runStart ∧ (State.modTable s f).free = s.free ∧
    (State.modTable s f).nextId = s.nextId ∧ (State.modTable s f).wire = s.wire ∧
    (State.modTable s f).objs = s.objs ∧ (State.modTable s f).keys = s.keys ∧
    (State.modTable s f).boot = s.boot ∧ (State.modTable s f).tod = s.tod ∧
    (State.modTable s f).twins = s.twins ∧ (State.modTable s f).ports = s.ports ∧
    (State.modTable s f).seqs = s.seqs ∧ (State.modTable s f).ops = s.ops ∧
    (State.modTable s f).waits = s.waits ∧ (State.modTable s f).frank = s.frank ∧
    (State.modTable s f).shelf = s.shelf ∧ (State.modTable s f).mem = s.mem ∧
    (State.modTable s f).cons = s.cons ∧ (State.modTable s f).past = s.past ∧
    (State.modTable s f).tal = s.tal ∧ (State.modTable s f).partners = s.partners ∧
    (State.modTable s f).bays = s.bays ∧ (State.modTable s f).day = s.day ∧
    (State.modTable s f).sessions = s.sessions ∧ (State.modTable s f).dport = s.dport ∧
    (State.modTable s f).events = s.events ∧ (State.modTable s f).buses = s.buses ∧
    (State.modTable s f).test = s.test ∧ (State.modTable s f).health = s.health :=
  ⟨rfl, rfl, rfl, rfl, rfl, rfl, rfl, rfl, rfl, rfl, rfl, rfl, rfl, rfl, rfl, rfl, rfl, rfl, rfl, rfl, rfl, rfl, rfl, rfl, rfl, rfl, rfl, rfl, rfl, rfl, rfl⟩

/-- `modBoot` changes no other field. -/
@[simp] theorem State.modBoot_keeps (s : State) (f : Boot → Boot) :
    (State.modBoot s f).pending = s.pending ∧ (State.modBoot s f).size = s.size ∧ (State.modBoot s f).now = s.now ∧
    (State.modBoot s f).runStart = s.runStart ∧ (State.modBoot s f).free = s.free ∧
    (State.modBoot s f).nextId = s.nextId ∧ (State.modBoot s f).wire = s.wire ∧
    (State.modBoot s f).objs = s.objs ∧ (State.modBoot s f).keys = s.keys ∧
    (State.modBoot s f).tod = s.tod ∧ (State.modBoot s f).twins = s.twins ∧
    (State.modBoot s f).ports = s.ports ∧ (State.modBoot s f).seqs = s.seqs ∧
    (State.modBoot s f).ops = s.ops ∧ (State.modBoot s f).waits = s.waits ∧
    (State.modBoot s f).frank = s.frank ∧ (State.modBoot s f).table = s.table ∧
    (State.modBoot s f).shelf = s.shelf ∧ (State.modBoot s f).mem = s.mem ∧
    (State.modBoot s f).cons = s.cons ∧ (State.modBoot s f).past = s.past ∧
    (State.modBoot s f).tal = s.tal ∧ (State.modBoot s f).partners = s.partners ∧
    (State.modBoot s f).bays = s.bays ∧ (State.modBoot s f).day = s.day ∧
    (State.modBoot s f).sessions = s.sessions ∧ (State.modBoot s f).dport = s.dport ∧
    (State.modBoot s f).events = s.events ∧ (State.modBoot s f).buses = s.buses ∧
    (State.modBoot s f).test = s.test ∧ (State.modBoot s f).health = s.health :=
  ⟨rfl, rfl, rfl, rfl, rfl, rfl, rfl, rfl, rfl, rfl, rfl, rfl, rfl, rfl, rfl, rfl, rfl, rfl, rfl, rfl, rfl, rfl, rfl, rfl, rfl, rfl, rfl, rfl, rfl, rfl, rfl⟩

/-- `modDay` changes no other field. -/
@[simp] theorem State.modDay_keeps (s : State) (f : Day → Day) :
    (State.modDay s f).pending = s.pending ∧ (State.modDay s f).size = s.size ∧ (State.modDay s f).now = s.now ∧
    (State.modDay s f).runStart = s.runStart ∧ (State.modDay s f).free = s.free ∧
    (State.modDay s f).nextId = s.nextId ∧ (State.modDay s f).wire = s.wire ∧
    (State.modDay s f).objs = s.objs ∧ (State.modDay s f).keys = s.keys ∧
    (State.modDay s f).boot = s.boot ∧ (State.modDay s f).tod = s.tod ∧
    (State.modDay s f).twins = s.twins ∧ (State.modDay s f).ports = s.ports ∧
    (State.modDay s f).seqs = s.seqs ∧ (State.modDay s f).ops = s.ops ∧
    (State.modDay s f).waits = s.waits ∧ (State.modDay s f).frank = s.frank ∧
    (State.modDay s f).table = s.table ∧ (State.modDay s f).shelf = s.shelf ∧
    (State.modDay s f).mem = s.mem ∧ (State.modDay s f).cons = s.cons ∧
    (State.modDay s f).past = s.past ∧ (State.modDay s f).tal = s.tal ∧
    (State.modDay s f).partners = s.partners ∧ (State.modDay s f).bays = s.bays ∧
    (State.modDay s f).sessions = s.sessions ∧ (State.modDay s f).dport = s.dport ∧
    (State.modDay s f).events = s.events ∧ (State.modDay s f).buses = s.buses ∧
    (State.modDay s f).test = s.test ∧ (State.modDay s f).health = s.health :=
  ⟨rfl, rfl, rfl, rfl, rfl, rfl, rfl, rfl, rfl, rfl, rfl, rfl, rfl, rfl, rfl, rfl, rfl, rfl, rfl, rfl, rfl, rfl, rfl, rfl, rfl, rfl, rfl, rfl, rfl, rfl, rfl⟩

/-- `modPort` changes no other field. -/
@[simp] theorem State.modPort_keeps (s : State) (f : DataPort → DataPort) :
    (State.modPort s f).pending = s.pending ∧ (State.modPort s f).size = s.size ∧ (State.modPort s f).now = s.now ∧
    (State.modPort s f).runStart = s.runStart ∧ (State.modPort s f).free = s.free ∧
    (State.modPort s f).nextId = s.nextId ∧ (State.modPort s f).wire = s.wire ∧
    (State.modPort s f).objs = s.objs ∧ (State.modPort s f).keys = s.keys ∧
    (State.modPort s f).boot = s.boot ∧ (State.modPort s f).tod = s.tod ∧
    (State.modPort s f).twins = s.twins ∧ (State.modPort s f).ports = s.ports ∧
    (State.modPort s f).seqs = s.seqs ∧ (State.modPort s f).ops = s.ops ∧
    (State.modPort s f).waits = s.waits ∧ (State.modPort s f).frank = s.frank ∧
    (State.modPort s f).table = s.table ∧ (State.modPort s f).shelf = s.shelf ∧
    (State.modPort s f).mem = s.mem ∧ (State.modPort s f).cons = s.cons ∧
    (State.modPort s f).past = s.past ∧ (State.modPort s f).tal = s.tal ∧
    (State.modPort s f).partners = s.partners ∧ (State.modPort s f).bays = s.bays ∧
    (State.modPort s f).day = s.day ∧ (State.modPort s f).sessions = s.sessions ∧
    (State.modPort s f).events = s.events ∧ (State.modPort s f).buses = s.buses ∧
    (State.modPort s f).test = s.test ∧ (State.modPort s f).health = s.health :=
  ⟨rfl, rfl, rfl, rfl, rfl, rfl, rfl, rfl, rfl, rfl, rfl, rfl, rfl, rfl, rfl, rfl, rfl, rfl, rfl, rfl, rfl, rfl, rfl, rfl, rfl, rfl, rfl, rfl, rfl, rfl, rfl⟩

/-- `setKey` changes no other field. -/
@[simp] theorem State.setKey_keeps (s : State) (i sub v : Nat) :
    (State.setKey s i sub v).pending = s.pending ∧ (State.setKey s i sub v).size = s.size ∧ (State.setKey s i sub v).now = s.now ∧
    (State.setKey s i sub v).runStart = s.runStart ∧ (State.setKey s i sub v).free = s.free ∧
    (State.setKey s i sub v).nextId = s.nextId ∧ (State.setKey s i sub v).wire = s.wire ∧
    (State.setKey s i sub v).objs = s.objs ∧ (State.setKey s i sub v).boot = s.boot ∧
    (State.setKey s i sub v).tod = s.tod ∧ (State.setKey s i sub v).twins = s.twins ∧
    (State.setKey s i sub v).ports = s.ports ∧ (State.setKey s i sub v).seqs = s.seqs ∧
    (State.setKey s i sub v).ops = s.ops ∧ (State.setKey s i sub v).waits = s.waits ∧
    (State.setKey s i sub v).frank = s.frank ∧ (State.setKey s i sub v).table = s.table ∧
    (State.setKey s i sub v).shelf = s.shelf ∧ (State.setKey s i sub v).mem = s.mem ∧
    (State.setKey s i sub v).cons = s.cons ∧ (State.setKey s i sub v).past = s.past ∧
    (State.setKey s i sub v).tal = s.tal ∧ (State.setKey s i sub v).partners = s.partners ∧
    (State.setKey s i sub v).bays = s.bays ∧ (State.setKey s i sub v).day = s.day ∧
    (State.setKey s i sub v).sessions = s.sessions ∧ (State.setKey s i sub v).dport = s.dport ∧
    (State.setKey s i sub v).events = s.events ∧ (State.setKey s i sub v).buses = s.buses ∧
    (State.setKey s i sub v).test = s.test ∧ (State.setKey s i sub v).health = s.health :=
  ⟨rfl, rfl, rfl, rfl, rfl, rfl, rfl, rfl, rfl, rfl, rfl, rfl, rfl, rfl, rfl, rfl, rfl, rfl, rfl, rfl, rfl, rfl, rfl, rfl, rfl, rfl, rfl, rfl, rfl, rfl, rfl⟩

/-- `putSeq` changes no other field. -/
@[simp] theorem State.putSeq_keeps (s : State) (q : SeqSt) :
    (State.putSeq s q).pending = s.pending ∧ (State.putSeq s q).size = s.size ∧ (State.putSeq s q).now = s.now ∧
    (State.putSeq s q).runStart = s.runStart ∧ (State.putSeq s q).free = s.free ∧
    (State.putSeq s q).nextId = s.nextId ∧ (State.putSeq s q).wire = s.wire ∧
    (State.putSeq s q).objs = s.objs ∧ (State.putSeq s q).keys = s.keys ∧
    (State.putSeq s q).boot = s.boot ∧ (State.putSeq s q).tod = s.tod ∧
    (State.putSeq s q).twins = s.twins ∧ (State.putSeq s q).ports = s.ports ∧
    (State.putSeq s q).ops = s.ops ∧ (State.putSeq s q).waits = s.waits ∧
    (State.putSeq s q).frank = s.frank ∧ (State.putSeq s q).table = s.table ∧
    (State.putSeq s q).shelf = s.shelf ∧ (State.putSeq s q).mem = s.mem ∧
    (State.putSeq s q).cons = s.cons ∧ (State.putSeq s q).past = s.past ∧
    (State.putSeq s q).tal = s.tal ∧ (State.putSeq s q).partners = s.partners ∧
    (State.putSeq s q).bays = s.bays ∧ (State.putSeq s q).day = s.day ∧
    (State.putSeq s q).sessions = s.sessions ∧ (State.putSeq s q).dport = s.dport ∧
    (State.putSeq s q).events = s.events ∧ (State.putSeq s q).buses = s.buses ∧
    (State.putSeq s q).test = s.test ∧ (State.putSeq s q).health = s.health :=
  ⟨rfl, rfl, rfl, rfl, rfl, rfl, rfl, rfl, rfl, rfl, rfl, rfl, rfl, rfl, rfl, rfl, rfl, rfl, rfl, rfl, rfl, rfl, rfl, rfl, rfl, rfl, rfl, rfl, rfl, rfl, rfl⟩

/-- `setI3c` changes no other field. -/
@[simp] theorem State.setI3c_keeps (s : State) (x : Option (Nat × Nat × List Byte)) :
    (State.setI3c s x).pending = s.pending ∧ (State.setI3c s x).size = s.size ∧ (State.setI3c s x).now = s.now ∧
    (State.setI3c s x).runStart = s.runStart ∧ (State.setI3c s x).free = s.free ∧
    (State.setI3c s x).nextId = s.nextId ∧ (State.setI3c s x).wire = s.wire ∧
    (State.setI3c s x).objs = s.objs ∧ (State.setI3c s x).keys = s.keys ∧
    (State.setI3c s x).boot = s.boot ∧ (State.setI3c s x).tod = s.tod ∧
    (State.setI3c s x).twins = s.twins ∧ (State.setI3c s x).ports = s.ports ∧
    (State.setI3c s x).seqs = s.seqs ∧ (State.setI3c s x).ops = s.ops ∧
    (State.setI3c s x).waits = s.waits ∧ (State.setI3c s x).frank = s.frank ∧
    (State.setI3c s x).table = s.table ∧ (State.setI3c s x).shelf = s.shelf ∧
    (State.setI3c s x).mem = s.mem ∧ (State.setI3c s x).cons = s.cons ∧
    (State.setI3c s x).past = s.past ∧ (State.setI3c s x).tal = s.tal ∧
    (State.setI3c s x).partners = s.partners ∧ (State.setI3c s x).bays = s.bays ∧
    (State.setI3c s x).day = s.day ∧ (State.setI3c s x).sessions = s.sessions ∧
    (State.setI3c s x).dport = s.dport ∧ (State.setI3c s x).events = s.events ∧
    (State.setI3c s x).test = s.test ∧ (State.setI3c s x).health = s.health :=
  ⟨rfl, rfl, rfl, rfl, rfl, rfl, rfl, rfl, rfl, rfl, rfl, rfl, rfl, rfl, rfl, rfl, rfl, rfl, rfl, rfl, rfl, rfl, rfl, rfl, rfl, rfl, rfl, rfl, rfl, rfl, rfl⟩

/-- `modTile` changes no other field. -/
@[simp] theorem State.modTile_keeps (s : State) (cid i : Nat) (f : Tile → Tile) :
    (State.modTile s cid i f).pending = s.pending ∧ (State.modTile s cid i f).size = s.size ∧ (State.modTile s cid i f).now = s.now ∧
    (State.modTile s cid i f).runStart = s.runStart ∧ (State.modTile s cid i f).free = s.free ∧
    (State.modTile s cid i f).nextId = s.nextId ∧ (State.modTile s cid i f).wire = s.wire ∧
    (State.modTile s cid i f).objs = s.objs ∧ (State.modTile s cid i f).keys = s.keys ∧
    (State.modTile s cid i f).boot = s.boot ∧ (State.modTile s cid i f).tod = s.tod ∧
    (State.modTile s cid i f).twins = s.twins ∧ (State.modTile s cid i f).ports = s.ports ∧
    (State.modTile s cid i f).seqs = s.seqs ∧ (State.modTile s cid i f).ops = s.ops ∧
    (State.modTile s cid i f).waits = s.waits ∧ (State.modTile s cid i f).frank = s.frank ∧
    (State.modTile s cid i f).table = s.table ∧ (State.modTile s cid i f).shelf = s.shelf ∧
    (State.modTile s cid i f).mem = s.mem ∧ (State.modTile s cid i f).past = s.past ∧
    (State.modTile s cid i f).tal = s.tal ∧ (State.modTile s cid i f).partners = s.partners ∧
    (State.modTile s cid i f).bays = s.bays ∧ (State.modTile s cid i f).day = s.day ∧
    (State.modTile s cid i f).sessions = s.sessions ∧ (State.modTile s cid i f).dport = s.dport ∧
    (State.modTile s cid i f).events = s.events ∧ (State.modTile s cid i f).buses = s.buses ∧
    (State.modTile s cid i f).test = s.test ∧ (State.modTile s cid i f).health = s.health :=
  ⟨rfl, rfl, rfl, rfl, rfl, rfl, rfl, rfl, rfl, rfl, rfl, rfl, rfl, rfl, rfl, rfl, rfl, rfl, rfl, rfl, rfl, rfl, rfl, rfl, rfl, rfl, rfl, rfl, rfl, rfl, rfl⟩

/-- `modTherm` changes no other field. -/
@[simp] theorem State.modTherm_keeps (s : State) (b : Nat) (f : Thermal → Thermal) :
    (State.modTherm s b f).pending = s.pending ∧ (State.modTherm s b f).size = s.size ∧ (State.modTherm s b f).now = s.now ∧
    (State.modTherm s b f).runStart = s.runStart ∧ (State.modTherm s b f).free = s.free ∧
    (State.modTherm s b f).nextId = s.nextId ∧ (State.modTherm s b f).wire = s.wire ∧
    (State.modTherm s b f).objs = s.objs ∧ (State.modTherm s b f).keys = s.keys ∧
    (State.modTherm s b f).boot = s.boot ∧ (State.modTherm s b f).tod = s.tod ∧
    (State.modTherm s b f).twins = s.twins ∧ (State.modTherm s b f).ports = s.ports ∧
    (State.modTherm s b f).seqs = s.seqs ∧ (State.modTherm s b f).ops = s.ops ∧
    (State.modTherm s b f).waits = s.waits ∧ (State.modTherm s b f).frank = s.frank ∧
    (State.modTherm s b f).table = s.table ∧ (State.modTherm s b f).shelf = s.shelf ∧
    (State.modTherm s b f).mem = s.mem ∧ (State.modTherm s b f).cons = s.cons ∧
    (State.modTherm s b f).past = s.past ∧ (State.modTherm s b f).tal = s.tal ∧
    (State.modTherm s b f).partners = s.partners ∧ (State.modTherm s b f).day = s.day ∧
    (State.modTherm s b f).sessions = s.sessions ∧ (State.modTherm s b f).dport = s.dport ∧
    (State.modTherm s b f).events = s.events ∧ (State.modTherm s b f).buses = s.buses ∧
    (State.modTherm s b f).test = s.test ∧ (State.modTherm s b f).health = s.health :=
  ⟨rfl, rfl, rfl, rfl, rfl, rfl, rfl, rfl, rfl, rfl, rfl, rfl, rfl, rfl, rfl, rfl, rfl, rfl, rfl, rfl, rfl, rfl, rfl, rfl, rfl, rfl, rfl, rfl, rfl, rfl, rfl⟩

/-- `modTrain` changes no other field. -/
@[simp] theorem State.modTrain_keeps (s : State) (b : Nat) (f : Training → Training) :
    (State.modTrain s b f).pending = s.pending ∧ (State.modTrain s b f).size = s.size ∧ (State.modTrain s b f).now = s.now ∧
    (State.modTrain s b f).runStart = s.runStart ∧ (State.modTrain s b f).free = s.free ∧
    (State.modTrain s b f).nextId = s.nextId ∧ (State.modTrain s b f).wire = s.wire ∧
    (State.modTrain s b f).objs = s.objs ∧ (State.modTrain s b f).keys = s.keys ∧
    (State.modTrain s b f).boot = s.boot ∧ (State.modTrain s b f).tod = s.tod ∧
    (State.modTrain s b f).twins = s.twins ∧ (State.modTrain s b f).ports = s.ports ∧
    (State.modTrain s b f).seqs = s.seqs ∧ (State.modTrain s b f).ops = s.ops ∧
    (State.modTrain s b f).waits = s.waits ∧ (State.modTrain s b f).frank = s.frank ∧
    (State.modTrain s b f).table = s.table ∧ (State.modTrain s b f).shelf = s.shelf ∧
    (State.modTrain s b f).mem = s.mem ∧ (State.modTrain s b f).cons = s.cons ∧
    (State.modTrain s b f).past = s.past ∧ (State.modTrain s b f).tal = s.tal ∧
    (State.modTrain s b f).partners = s.partners ∧ (State.modTrain s b f).day = s.day ∧
    (State.modTrain s b f).sessions = s.sessions ∧ (State.modTrain s b f).dport = s.dport ∧
    (State.modTrain s b f).events = s.events ∧ (State.modTrain s b f).buses = s.buses ∧
    (State.modTrain s b f).test = s.test ∧ (State.modTrain s b f).health = s.health :=
  ⟨rfl, rfl, rfl, rfl, rfl, rfl, rfl, rfl, rfl, rfl, rfl, rfl, rfl, rfl, rfl, rfl, rfl, rfl, rfl, rfl, rfl, rfl, rfl, rfl, rfl, rfl, rfl, rfl, rfl, rfl, rfl⟩

/-- `modSched` changes no other field. -/
@[simp] theorem State.modSched_keeps (s : State) (b : Nat) (f : Sched → Sched) :
    (State.modSched s b f).pending = s.pending ∧ (State.modSched s b f).size = s.size ∧ (State.modSched s b f).now = s.now ∧
    (State.modSched s b f).runStart = s.runStart ∧ (State.modSched s b f).free = s.free ∧
    (State.modSched s b f).nextId = s.nextId ∧ (State.modSched s b f).wire = s.wire ∧
    (State.modSched s b f).objs = s.objs ∧ (State.modSched s b f).keys = s.keys ∧
    (State.modSched s b f).boot = s.boot ∧ (State.modSched s b f).tod = s.tod ∧
    (State.modSched s b f).twins = s.twins ∧ (State.modSched s b f).ports = s.ports ∧
    (State.modSched s b f).seqs = s.seqs ∧ (State.modSched s b f).ops = s.ops ∧
    (State.modSched s b f).waits = s.waits ∧ (State.modSched s b f).frank = s.frank ∧
    (State.modSched s b f).table = s.table ∧ (State.modSched s b f).shelf = s.shelf ∧
    (State.modSched s b f).mem = s.mem ∧ (State.modSched s b f).cons = s.cons ∧
    (State.modSched s b f).past = s.past ∧ (State.modSched s b f).tal = s.tal ∧
    (State.modSched s b f).partners = s.partners ∧ (State.modSched s b f).day = s.day ∧
    (State.modSched s b f).sessions = s.sessions ∧ (State.modSched s b f).dport = s.dport ∧
    (State.modSched s b f).events = s.events ∧ (State.modSched s b f).buses = s.buses ∧
    (State.modSched s b f).test = s.test ∧ (State.modSched s b f).health = s.health :=
  ⟨rfl, rfl, rfl, rfl, rfl, rfl, rfl, rfl, rfl, rfl, rfl, rfl, rfl, rfl, rfl, rfl, rfl, rfl, rfl, rfl, rfl, rfl, rfl, rfl, rfl, rfl, rfl, rfl, rfl, rfl, rfl⟩

/-- `putMeter` changes no other field. -/
@[simp] theorem State.putMeter_keeps (s : State) (m : Meter) :
    (State.putMeter s m).pending = s.pending ∧ (State.putMeter s m).size = s.size ∧ (State.putMeter s m).now = s.now ∧
    (State.putMeter s m).runStart = s.runStart ∧ (State.putMeter s m).free = s.free ∧
    (State.putMeter s m).nextId = s.nextId ∧ (State.putMeter s m).wire = s.wire ∧
    (State.putMeter s m).objs = s.objs ∧ (State.putMeter s m).keys = s.keys ∧
    (State.putMeter s m).boot = s.boot ∧ (State.putMeter s m).tod = s.tod ∧
    (State.putMeter s m).twins = s.twins ∧ (State.putMeter s m).ports = s.ports ∧
    (State.putMeter s m).seqs = s.seqs ∧ (State.putMeter s m).ops = s.ops ∧
    (State.putMeter s m).waits = s.waits ∧ (State.putMeter s m).table = s.table ∧
    (State.putMeter s m).shelf = s.shelf ∧ (State.putMeter s m).mem = s.mem ∧
    (State.putMeter s m).cons = s.cons ∧ (State.putMeter s m).past = s.past ∧
    (State.putMeter s m).tal = s.tal ∧ (State.putMeter s m).partners = s.partners ∧
    (State.putMeter s m).bays = s.bays ∧ (State.putMeter s m).day = s.day ∧
    (State.putMeter s m).sessions = s.sessions ∧ (State.putMeter s m).dport = s.dport ∧
    (State.putMeter s m).events = s.events ∧ (State.putMeter s m).buses = s.buses ∧
    (State.putMeter s m).test = s.test ∧ (State.putMeter s m).health = s.health :=
  ⟨rfl, rfl, rfl, rfl, rfl, rfl, rfl, rfl, rfl, rfl, rfl, rfl, rfl, rfl, rfl, rfl, rfl, rfl, rfl, rfl, rfl, rfl, rfl, rfl, rfl, rfl, rfl, rfl, rfl, rfl, rfl⟩

/-- `putLease` changes no other field. -/
@[simp] theorem State.putLease_keeps (s : State) (l : Lease) :
    (State.putLease s l).pending = s.pending ∧ (State.putLease s l).size = s.size ∧ (State.putLease s l).now = s.now ∧
    (State.putLease s l).runStart = s.runStart ∧ (State.putLease s l).free = s.free ∧
    (State.putLease s l).nextId = s.nextId ∧ (State.putLease s l).wire = s.wire ∧
    (State.putLease s l).objs = s.objs ∧ (State.putLease s l).keys = s.keys ∧
    (State.putLease s l).boot = s.boot ∧ (State.putLease s l).tod = s.tod ∧
    (State.putLease s l).twins = s.twins ∧ (State.putLease s l).ports = s.ports ∧
    (State.putLease s l).seqs = s.seqs ∧ (State.putLease s l).ops = s.ops ∧
    (State.putLease s l).waits = s.waits ∧ (State.putLease s l).table = s.table ∧
    (State.putLease s l).shelf = s.shelf ∧ (State.putLease s l).mem = s.mem ∧
    (State.putLease s l).cons = s.cons ∧ (State.putLease s l).past = s.past ∧
    (State.putLease s l).tal = s.tal ∧ (State.putLease s l).partners = s.partners ∧
    (State.putLease s l).bays = s.bays ∧ (State.putLease s l).day = s.day ∧
    (State.putLease s l).sessions = s.sessions ∧ (State.putLease s l).dport = s.dport ∧
    (State.putLease s l).events = s.events ∧ (State.putLease s l).buses = s.buses ∧
    (State.putLease s l).test = s.test ∧ (State.putLease s l).health = s.health :=
  ⟨rfl, rfl, rfl, rfl, rfl, rfl, rfl, rfl, rfl, rfl, rfl, rfl, rfl, rfl, rfl, rfl, rfl, rfl, rfl, rfl, rfl, rfl, rfl, rfl, rfl, rfl, rfl, rfl, rfl, rfl, rfl⟩

/-- `setGLevel` changes no other field. -/
@[simp] theorem State.setGLevel_keeps (s : State) (b c v : Nat) :
    (State.setGLevel s b c v).pending = s.pending ∧ (State.setGLevel s b c v).size = s.size ∧ (State.setGLevel s b c v).now = s.now ∧
    (State.setGLevel s b c v).runStart = s.runStart ∧ (State.setGLevel s b c v).free = s.free ∧
    (State.setGLevel s b c v).nextId = s.nextId ∧ (State.setGLevel s b c v).wire = s.wire ∧
    (State.setGLevel s b c v).objs = s.objs ∧ (State.setGLevel s b c v).keys = s.keys ∧
    (State.setGLevel s b c v).boot = s.boot ∧ (State.setGLevel s b c v).tod = s.tod ∧
    (State.setGLevel s b c v).twins = s.twins ∧ (State.setGLevel s b c v).ports = s.ports ∧
    (State.setGLevel s b c v).seqs = s.seqs ∧ (State.setGLevel s b c v).ops = s.ops ∧
    (State.setGLevel s b c v).waits = s.waits ∧ (State.setGLevel s b c v).table = s.table ∧
    (State.setGLevel s b c v).shelf = s.shelf ∧ (State.setGLevel s b c v).mem = s.mem ∧
    (State.setGLevel s b c v).cons = s.cons ∧ (State.setGLevel s b c v).past = s.past ∧
    (State.setGLevel s b c v).tal = s.tal ∧ (State.setGLevel s b c v).partners = s.partners ∧
    (State.setGLevel s b c v).bays = s.bays ∧ (State.setGLevel s b c v).day = s.day ∧
    (State.setGLevel s b c v).sessions = s.sessions ∧ (State.setGLevel s b c v).dport = s.dport ∧
    (State.setGLevel s b c v).events = s.events ∧ (State.setGLevel s b c v).buses = s.buses ∧
    (State.setGLevel s b c v).test = s.test ∧ (State.setGLevel s b c v).health = s.health :=
  ⟨rfl, rfl, rfl, rfl, rfl, rfl, rfl, rfl, rfl, rfl, rfl, rfl, rfl, rfl, rfl, rfl, rfl, rfl, rfl, rfl, rfl, rfl, rfl, rfl, rfl, rfl, rfl, rfl, rfl, rfl, rfl⟩

/-- `addWaiter` changes no other field. -/
@[simp] theorem State.addWaiter_keeps (s : State) (a : Arrival) (what : WaitFor) :
    (State.addWaiter s a what).pending = s.pending ∧ (State.addWaiter s a what).size = s.size ∧ (State.addWaiter s a what).now = s.now ∧
    (State.addWaiter s a what).runStart = s.runStart ∧ (State.addWaiter s a what).free = s.free ∧
    (State.addWaiter s a what).nextId = s.nextId ∧ (State.addWaiter s a what).wire = s.wire ∧
    (State.addWaiter s a what).objs = s.objs ∧ (State.addWaiter s a what).keys = s.keys ∧
    (State.addWaiter s a what).boot = s.boot ∧ (State.addWaiter s a what).tod = s.tod ∧
    (State.addWaiter s a what).twins = s.twins ∧ (State.addWaiter s a what).ports = s.ports ∧
    (State.addWaiter s a what).seqs = s.seqs ∧ (State.addWaiter s a what).ops = s.ops ∧
    (State.addWaiter s a what).waits = s.waits ∧ (State.addWaiter s a what).frank = s.frank ∧
    (State.addWaiter s a what).table = s.table ∧ (State.addWaiter s a what).shelf = s.shelf ∧
    (State.addWaiter s a what).mem = s.mem ∧ (State.addWaiter s a what).cons = s.cons ∧
    (State.addWaiter s a what).past = s.past ∧ (State.addWaiter s a what).partners = s.partners ∧
    (State.addWaiter s a what).bays = s.bays ∧ (State.addWaiter s a what).day = s.day ∧
    (State.addWaiter s a what).sessions = s.sessions ∧ (State.addWaiter s a what).dport = s.dport ∧
    (State.addWaiter s a what).events = s.events ∧ (State.addWaiter s a what).buses = s.buses ∧
    (State.addWaiter s a what).test = s.test ∧ (State.addWaiter s a what).health = s.health :=
  ⟨rfl, rfl, rfl, rfl, rfl, rfl, rfl, rfl, rfl, rfl, rfl, rfl, rfl, rfl, rfl, rfl, rfl, rfl, rfl, rfl, rfl, rfl, rfl, rfl, rfl, rfl, rfl, rfl, rfl, rfl, rfl⟩

/-- `rebind` changes no other field. -/
@[simp] theorem State.rebind_keeps (s : State) (n : Nat) :
    (State.rebind s n).pending = s.pending ∧ (State.rebind s n).size = s.size ∧ (State.rebind s n).now = s.now ∧
    (State.rebind s n).runStart = s.runStart ∧ (State.rebind s n).free = s.free ∧
    (State.rebind s n).nextId = s.nextId ∧ (State.rebind s n).wire = s.wire ∧
    (State.rebind s n).objs = s.objs ∧ (State.rebind s n).keys = s.keys ∧
    (State.rebind s n).boot = s.boot ∧ (State.rebind s n).tod = s.tod ∧
    (State.rebind s n).twins = s.twins ∧ (State.rebind s n).ports = s.ports ∧
    (State.rebind s n).seqs = s.seqs ∧ (State.rebind s n).ops = s.ops ∧
    (State.rebind s n).waits = s.waits ∧ (State.rebind s n).frank = s.frank ∧
    (State.rebind s n).table = s.table ∧ (State.rebind s n).shelf = s.shelf ∧
    (State.rebind s n).mem = s.mem ∧ (State.rebind s n).cons = s.cons ∧
    (State.rebind s n).past = s.past ∧ (State.rebind s n).partners = s.partners ∧
    (State.rebind s n).bays = s.bays ∧ (State.rebind s n).day = s.day ∧
    (State.rebind s n).sessions = s.sessions ∧ (State.rebind s n).dport = s.dport ∧
    (State.rebind s n).events = s.events ∧ (State.rebind s n).buses = s.buses ∧
    (State.rebind s n).test = s.test ∧ (State.rebind s n).health = s.health :=
  ⟨rfl, rfl, rfl, rfl, rfl, rfl, rfl, rfl, rfl, rfl, rfl, rfl, rfl, rfl, rfl, rfl, rfl, rfl, rfl, rfl, rfl, rfl, rfl, rfl, rfl, rfl, rfl, rfl, rfl, rfl, rfl⟩

/-! ### What an update writes -/

theorem Objects.key_inj {i sub i' sub' : Nat} (h : sub < 256) (h' : sub' < 256) :
    Objects.key i sub = Objects.key i' sub' ↔ i = i' ∧ sub = sub' := by
  unfold Objects.key; omega

/-- An object reads as it was set, and every other as before. -/
theorem State.obj_setObj (s : State) (i sub v j sub' : Nat) :
    (s.setObj i sub v).obj j sub' = if Objects.key j sub' = Objects.key i sub then v else s.obj j sub' := by
  unfold State.obj State.setObj
  exact getA_setA _ _ _ _ _ _ (fun h => by rw [h])

@[simp] theorem State.obj_setObj_same (s : State) (i sub v : Nat) : (s.setObj i sub v).obj i sub = v := by
  simp [State.obj_setObj]

theorem State.obj_setObj_ne (s : State) {i sub v j sub' : Nat} (h : Objects.key j sub' ≠ Objects.key i sub) :
    (s.setObj i sub v).obj j sub' = s.obj j sub' := by simp [State.obj_setObj, h]

@[simp] theorem State.obj_bump_same (s : State) (i sub n : Nat) : (s.bump i sub n).obj i sub = s.obj i sub + n := by
  simp [State.bump]

theorem State.obj_bump_ne (s : State) {i sub n j sub' : Nat} (h : Objects.key j sub' ≠ Objects.key i sub) :
    (s.bump i sub n).obj j sub' = s.obj j sub' := State.obj_setObj_ne s h

/-- Two states with the same dictionary have the same objects. -/
theorem State.obj_congr {s t : State} (h : t.objs = s.objs) (i sub : Nat) : t.obj i sub = s.obj i sub := by
  unfold State.obj; rw [h]

@[simp] theorem State.emit_wire (s : State) (w : Wire) : (s.emit w).wire = w :: s.wire := rfl

@[simp] theorem State.modMem_mem (s : State) (f : Mem → Mem) : (s.modMem f).mem = f s.mem := rfl

theorem State.bay_setBay (s : State) (b c : Nat) (y : Bay) (h : b < s.bays.length) :
    (s.setBay b y).bay c = if c = b then y else s.bay c := by
  unfold State.bay State.setBay
  by_cases hc : c = b
  · subst hc; simp [List.getD, h]
  · simp [List.getD, List.getElem?_set_ne (Ne.symm hc), hc]

theorem State.bay_setBay_ne (s : State) {b c : Nat} (y : Bay) (h : c ≠ b) : (s.setBay b y).bay c = s.bay c := by
  unfold State.bay State.setBay
  simp [List.getD, List.getElem?_set_ne (Ne.symm h)]

theorem State.bay_modBay (s : State) (b c : Nat) (f : Bay → Bay) (h : b < s.bays.length) :
    (s.modBay b f).bay c = if c = b then f (s.bay b) else s.bay c := State.bay_setBay s b c _ h

@[simp] theorem State.setBay_length (s : State) (b : Nat) (y : Bay) : (s.setBay b y).bays.length = s.bays.length := by
  simp [State.setBay]

@[simp] theorem State.modBay_length (s : State) (b : Nat) (f : Bay → Bay) : (s.modBay b f).bays.length = s.bays.length := by
  simp [State.modBay]

theorem State.port_setPort (s : State) (p r : Nat) (q : PortSt) (h : p < s.ports.length) :
    (s.setPort p q).port r = if r = p then q else s.port r := by
  unfold State.port State.setPort
  by_cases hc : r = p
  · subst hc; simp [List.getD, h]
  · simp [List.getD, List.getElem?_set_ne (Ne.symm hc), hc]

@[simp] theorem State.setPort_length (s : State) (p : Nat) (q : PortSt) : (s.setPort p q).ports.length = s.ports.length := by
  simp [State.setPort]

end Sys2Proof.Machine
end

