-- ==== Sys2Proof/Laws/Frame.lean ====
section
/-! SUPPORT. What the shared operations leave alone: one fact per operation, which later proofs cite instead of unfolding it. -/

set_option linter.unusedSimpArgs false

namespace Sys2Proof.Machine

/-- A field that every step of a fold keeps is kept by the fold. -/
theorem foldl_keeps {α β : Type} (p : State → β) (f : State → α → State) (h : ∀ t x, p (f t x) = p t) (l : List α) (s : State) :
    p (l.foldl f s) = p s := by
  induction l generalizing s with
  | nil => rfl
  | cons x l ih => exact (ih (f s x)).trans (h s x)

/-- A relation that every step of a fold keeps holds across the fold. -/
theorem foldl_rel {α : Type} (r : State → State → Prop) (hr : ∀ a, r a a) (ht : ∀ a b c, r a b → r b c → r a c)
    (f : State → α → State) (h : ∀ t x, r t (f t x)) (l : List α) (s : State) : r s (l.foldl f s) := by
  induction l generalizing s with
  | nil => exact hr s
  | cons x l ih => exact ht _ _ _ (h s x) (ih (f s x))

@[simp] theorem State.foldl_pending {α : Type} (g : State → α → State) (l : List α) (s : State) (h : ∀ t x, (g t x).pending = t.pending) :
    (l.foldl g s).pending = s.pending := foldl_keeps (·.pending) g h l s
@[simp] theorem State.ite_pending (c : Prop) [Decidable c] (a b : State) : (if c then a else b).pending = if c then a.pending else b.pending := by
  split <;> rfl

@[simp] theorem State.foldl_size {α : Type} (g : State → α → State) (l : List α) (s : State) (h : ∀ t x, (g t x).size = t.size) :
    (l.foldl g s).size = s.size := foldl_keeps (·.size) g h l s
@[simp] theorem State.ite_size (c : Prop) [Decidable c] (a b : State) : (if c then a else b).size = if c then a.size else b.size := by
  split <;> rfl

@[simp] theorem State.foldl_now {α : Type} (g : State → α → State) (l : List α) (s : State) (h : ∀ t x, (g t x).now = t.now) :
    (l.foldl g s).now = s.now := foldl_keeps (·.now) g h l s
@[simp] theorem State.ite_now (c : Prop) [Decidable c] (a b : State) : (if c then a else b).now = if c then a.now else b.now := by
  split <;> rfl

@[simp] theorem State.foldl_runStart {α : Type} (g : State → α → State) (l : List α) (s : State) (h : ∀ t x, (g t x).runStart = t.runStart) :
    (l.foldl g s).runStart = s.runStart := foldl_keeps (·.runStart) g h l s
@[simp] theorem State.ite_runStart (c : Prop) [Decidable c] (a b : State) : (if c then a else b).runStart = if c then a.runStart else b.runStart := by
  split <;> rfl

@[simp] theorem State.foldl_free {α : Type} (g : State → α → State) (l : List α) (s : State) (h : ∀ t x, (g t x).free = t.free) :
    (l.foldl g s).free = s.free := foldl_keeps (·.free) g h l s
@[simp] theorem State.ite_free (c : Prop) [Decidable c] (a b : State) : (if c then a else b).free = if c then a.free else b.free := by
  split <;> rfl

@[simp] theorem State.foldl_nextId {α : Type} (g : State → α → State) (l : List α) (s : State) (h : ∀ t x, (g t x).nextId = t.nextId) :
    (l.foldl g s).nextId = s.nextId := foldl_keeps (·.nextId) g h l s
@[simp] theorem State.ite_nextId (c : Prop) [Decidable c] (a b : State) : (if c then a else b).nextId = if c then a.nextId else b.nextId := by
  split <;> rfl

@[simp] theorem State.foldl_wire {α : Type} (g : State → α → State) (l : List α) (s : State) (h : ∀ t x, (g t x).wire = t.wire) :
    (l.foldl g s).wire = s.wire := foldl_keeps (·.wire) g h l s
@[simp] theorem State.ite_wire (c : Prop) [Decidable c] (a b : State) : (if c then a else b).wire = if c then a.wire else b.wire := by
  split <;> rfl

@[simp] theorem State.foldl_objs {α : Type} (g : State → α → State) (l : List α) (s : State) (h : ∀ t x, (g t x).objs = t.objs) :
    (l.foldl g s).objs = s.objs := foldl_keeps (·.objs) g h l s
@[simp] theorem State.ite_objs (c : Prop) [Decidable c] (a b : State) : (if c then a else b).objs = if c then a.objs else b.objs := by
  split <;> rfl

@[simp] theorem State.foldl_keys {α : Type} (g : State → α → State) (l : List α) (s : State) (h : ∀ t x, (g t x).keys = t.keys) :
    (l.foldl g s).keys = s.keys := foldl_keeps (·.keys) g h l s
@[simp] theorem State.ite_keys (c : Prop) [Decidable c] (a b : State) : (if c then a else b).keys = if c then a.keys else b.keys := by
  split <;> rfl

@[simp] theorem State.foldl_boot {α : Type} (g : State → α → State) (l : List α) (s : State) (h : ∀ t x, (g t x).boot = t.boot) :
    (l.foldl g s).boot = s.boot := foldl_keeps (·.boot) g h l s
@[simp] theorem State.ite_boot (c : Prop) [Decidable c] (a b : State) : (if c then a else b).boot = if c then a.boot else b.boot := by
  split <;> rfl

@[simp] theorem State.foldl_tod {α : Type} (g : State → α → State) (l : List α) (s : State) (h : ∀ t x, (g t x).tod = t.tod) :
    (l.foldl g s).tod = s.tod := foldl_keeps (·.tod) g h l s
@[simp] theorem State.ite_tod (c : Prop) [Decidable c] (a b : State) : (if c then a else b).tod = if c then a.tod else b.tod := by
  split <;> rfl

@[simp] theorem State.foldl_twins {α : Type} (g : State → α → State) (l : List α) (s : State) (h : ∀ t x, (g t x).twins = t.twins) :
    (l.foldl g s).twins = s.twins := foldl_keeps (·.twins) g h l s
@[simp] theorem State.ite_twins (c : Prop) [Decidable c] (a b : State) : (if c then a else b).twins = if c then a.twins else b.twins := by
  split <;> rfl

@[simp] theorem State.foldl_ports {α : Type} (g : State → α → State) (l : List α) (s : State) (h : ∀ t x, (g t x).ports = t.ports) :
    (l.foldl g s).ports = s.ports := foldl_keeps (·.ports) g h l s
@[simp] theorem State.ite_ports (c : Prop) [Decidable c] (a b : State) : (if c then a else b).ports = if c then a.ports else b.ports := by
  split <;> rfl

@[simp] theorem State.foldl_seqs {α : Type} (g : State → α → State) (l : List α) (s : State) (h : ∀ t x, (g t x).seqs = t.seqs) :
    (l.foldl g s).seqs = s.seqs := foldl_keeps (·.seqs) g h l s
@[simp] theorem State.ite_seqs (c : Prop) [Decidable c] (a b : State) : (if c then a else b).seqs = if c then a.seqs else b.seqs := by
  split <;> rfl

@[simp] theorem State.foldl_ops {α : Type} (g : State → α → State) (l : List α) (s : State) (h : ∀ t x, (g t x).ops = t.ops) :
    (l.foldl g s).ops = s.ops := foldl_keeps (·.ops) g h l s
@[simp] theorem State.ite_ops (c : Prop) [Decidable c] (a b : State) : (if c then a else b).ops = if c then a.ops else b.ops := by
  split <;> rfl

@[simp] theorem State.foldl_waits {α : Type} (g : State → α → State) (l : List α) (s : State) (h : ∀ t x, (g t x).waits = t.waits) :
    (l.foldl g s).waits = s.waits := foldl_keeps (·.waits) g h l s
@[simp] theorem State.ite_waits (c : Prop) [Decidable c] (a b : State) : (if c then a else b).waits = if c then a.waits else b.waits := by
  split <;> rfl

@[simp] theorem State.foldl_frank {α : Type} (g : State → α → State) (l : List α) (s : State) (h : ∀ t x, (g t x).frank = t.frank) :
    (l.foldl g s).frank = s.frank := foldl_keeps (·.frank) g h l s
@[simp] theorem State.ite_frank (c : Prop) [Decidable c] (a b : State) : (if c then a else b).frank = if c then a.frank else b.frank := by
  split <;> rfl

@[simp] theorem State.foldl_table {α : Type} (g : State → α → State) (l : List α) (s : State) (h : ∀ t x, (g t x).table = t.table) :
    (l.foldl g s).table = s.table := foldl_keeps (·.table) g h l s
@[simp] theorem State.ite_table (c : Prop) [Decidable c] (a b : State) : (if c then a else b).table = if c then a.table else b.table := by
  split <;> rfl

@[simp] theorem State.foldl_shelf {α : Type} (g : State → α → State) (l : List α) (s : State) (h : ∀ t x, (g t x).shelf = t.shelf) :
    (l.foldl g s).shelf = s.shelf := foldl_keeps (·.shelf) g h l s
@[simp] theorem State.ite_shelf (c : Prop) [Decidable c] (a b : State) : (if c then a else b).shelf = if c then a.shelf else b.shelf := by
  split <;> rfl

@[simp] theorem State.foldl_mem {α : Type} (g : State → α → State) (l : List α) (s : State) (h : ∀ t x, (g t x).mem = t.mem) :
    (l.foldl g s).mem = s.mem := foldl_keeps (·.mem) g h l s
@[simp] theorem State.ite_mem (c : Prop) [Decidable c] (a b : State) : (if c then a else b).mem = if c then a.mem else b.mem := by
  split <;> rfl

@[simp] theorem State.foldl_cons {α : Type} (g : State → α → State) (l : List α) (s : State) (h : ∀ t x, (g t x).cons = t.cons) :
    (l.foldl g s).cons = s.cons := foldl_keeps (·.cons) g h l s
@[simp] theorem State.ite_cons (c : Prop) [Decidable c] (a b : State) : (if c then a else b).cons = if c then a.cons else b.cons := by
  split <;> rfl

@[simp] theorem State.foldl_past {α : Type} (g : State → α → State) (l : List α) (s : State) (h : ∀ t x, (g t x).past = t.past) :
    (l.foldl g s).past = s.past := foldl_keeps (·.past) g h l s
@[simp] theorem State.ite_past (c : Prop) [Decidable c] (a b : State) : (if c then a else b).past = if c then a.past else b.past := by
  split <;> rfl

@[simp] theorem State.foldl_tal {α : Type} (g : State → α → State) (l : List α) (s : State) (h : ∀ t x, (g t x).tal = t.tal) :
    (l.foldl g s).tal = s.tal := foldl_keeps (·.tal) g h l s
@[simp] theorem State.ite_tal (c : Prop) [Decidable c] (a b : State) : (if c then a else b).tal = if c then a.tal else b.tal := by
  split <;> rfl

@[simp] theorem State.foldl_partners {α : Type} (g : State → α → State) (l : List α) (s : State) (h : ∀ t x, (g t x).partners = t.partners) :
    (l.foldl g s).partners = s.partners := foldl_keeps (·.partners) g h l s
@[simp] theorem State.ite_partners (c : Prop) [Decidable c] (a b : State) : (if c then a else b).partners = if c then a.partners else b.partners := by
  split <;> rfl

@[simp] theorem State.foldl_bays {α : Type} (g : State → α → State) (l : List α) (s : State) (h : ∀ t x, (g t x).bays = t.bays) :
    (l.foldl g s).bays = s.bays := foldl_keeps (·.bays) g h l s
@[simp] theorem State.ite_bays (c : Prop) [Decidable c] (a b : State) : (if c then a else b).bays = if c then a.bays else b.bays := by
  split <;> rfl

@[simp] theorem State.foldl_day {α : Type} (g : State → α → State) (l : List α) (s : State) (h : ∀ t x, (g t x).day = t.day) :
    (l.foldl g s).day = s.day := foldl_keeps (·.day) g h l s
@[simp] theorem State.ite_day (c : Prop) [Decidable c] (a b : State) : (if c then a else b).day = if c then a.day else b.day := by
  split <;> rfl

@[simp] theorem State.foldl_sessions {α : Type} (g : State → α → State) (l : List α) (s : State) (h : ∀ t x, (g t x).sessions = t.sessions) :
    (l.foldl g s).sessions = s.sessions := foldl_keeps (·.sessions) g h l s
@[simp] theorem State.ite_sessions (c : Prop) [Decidable c] (a b : State) : (if c then a else b).sessions = if c then a.sessions else b.sessions := by
  split <;> rfl

@[simp] theorem State.foldl_dport {α : Type} (g : State → α → State) (l : List α) (s : State) (h : ∀ t x, (g t x).dport = t.dport) :
    (l.foldl g s).dport = s.dport := foldl_keeps (·.dport) g h l s
@[simp] theorem State.ite_dport (c : Prop) [Decidable c] (a b : State) : (if c then a else b).dport = if c then a.dport else b.dport := by
  split <;> rfl

@[simp] theorem State.foldl_events {α : Type} (g : State → α → State) (l : List α) (s : State) (h : ∀ t x, (g t x).events = t.events) :
    (l.foldl g s).events = s.events := foldl_keeps (·.events) g h l s
@[simp] theorem State.ite_events (c : Prop) [Decidable c] (a b : State) : (if c then a else b).events = if c then a.events else b.events := by
  split <;> rfl

@[simp] theorem State.foldl_buses {α : Type} (g : State → α → State) (l : List α) (s : State) (h : ∀ t x, (g t x).buses = t.buses) :
    (l.foldl g s).buses = s.buses := foldl_keeps (·.buses) g h l s
@[simp] theorem State.ite_buses (c : Prop) [Decidable c] (a b : State) : (if c then a else b).buses = if c then a.buses else b.buses := by
  split <;> rfl

@[simp] theorem State.foldl_test {α : Type} (g : State → α → State) (l : List α) (s : State) (h : ∀ t x, (g t x).test = t.test) :
    (l.foldl g s).test = s.test := foldl_keeps (·.test) g h l s
@[simp] theorem State.ite_test (c : Prop) [Decidable c] (a b : State) : (if c then a else b).test = if c then a.test else b.test := by
  split <;> rfl

@[simp] theorem State.foldl_health {α : Type} (g : State → α → State) (l : List α) (s : State) (h : ∀ t x, (g t x).health = t.health) :
    (l.foldl g s).health = s.health := foldl_keeps (·.health) g h l s
@[simp] theorem State.ite_health (c : Prop) [Decidable c] (a b : State) : (if c then a else b).health = if c then a.health else b.health := by
  split <;> rfl

@[simp] theorem ite_both {α : Type} (c : Prop) [Decidable c] (a : α) : (if c then a else a) = a := by split <;> rfl

@[simp] theorem State.addCtr_keeps (s : State) (c n : Nat) :
    (State.addCtr s c n).pending = s.pending ∧ (State.addCtr s c n).size = s.size ∧ (State.addCtr s c n).now = s.now ∧
    (State.addCtr s c n).runStart = s.runStart ∧ (State.addCtr s c n).free = s.free ∧
    (State.addCtr s c n).nextId = s.nextId ∧ (State.addCtr s c n).wire = s.wire ∧
    (State.addCtr s c n).objs = s.objs ∧ (State.addCtr s c n).keys = s.keys ∧
    (State.addCtr s c n).boot = s.boot ∧ (State.addCtr s c n).tod = s.tod ∧
    (State.addCtr s c n).twins = s.twins ∧ (State.addCtr s c n).ports = s.ports ∧
    (State.addCtr s c n).seqs = s.seqs ∧ (State.addCtr s c n).ops = s.ops ∧
    (State.addCtr s c n).waits = s.waits ∧ (State.addCtr s c n).frank = s.frank ∧
    (State.addCtr s c n).table = s.table ∧ (State.addCtr s c n).shelf = s.shelf ∧
    (State.addCtr s c n).mem = s.mem ∧ (State.addCtr s c n).cons = s.cons ∧
    (State.addCtr s c n).past = s.past ∧ (State.addCtr s c n).tal = s.tal ∧
    (State.addCtr s c n).partners = s.partners ∧ (State.addCtr s c n).bays = s.bays ∧
    (State.addCtr s c n).day = s.day ∧ (State.addCtr s c n).sessions = s.sessions ∧
    (State.addCtr s c n).dport = s.dport ∧ (State.addCtr s c n).events = s.events ∧
    (State.addCtr s c n).buses = s.buses ∧ (State.addCtr s c n).health = s.health := by
  unfold State.addCtr; simp

@[simp] theorem State.count_keeps (s : State) (o : Occ) :
    (State.count s o).pending = s.pending ∧ (State.count s o).size = s.size ∧ (State.count s o).now = s.now ∧
    (State.count s o).runStart = s.runStart ∧ (State.count s o).free = s.free ∧
    (State.count s o).nextId = s.nextId ∧ (State.count s o).wire = s.wire ∧
    (State.count s o).objs = s.objs ∧ (State.count s o).keys = s.keys ∧
    (State.count s o).boot = s.boot ∧ (State.count s o).tod = s.tod ∧
    (State.count s o).twins = s.twins ∧ (State.count s o).ports = s.ports ∧
    (State.count s o).seqs = s.seqs ∧ (State.count s o).ops = s.ops ∧
    (State.count s o).waits = s.waits ∧ (State.count s o).frank = s.frank ∧
    (State.count s o).table = s.table ∧ (State.count s o).shelf = s.shelf ∧
    (State.count s o).mem = s.mem ∧ (State.count s o).cons = s.cons ∧
    (State.count s o).past = s.past ∧ (State.count s o).tal = s.tal ∧
    (State.count s o).partners = s.partners ∧ (State.count s o).bays = s.bays ∧
    (State.count s o).day = s.day ∧ (State.count s o).sessions = s.sessions ∧
    (State.count s o).dport = s.dport ∧ (State.count s o).events = s.events ∧
    (State.count s o).buses = s.buses ∧ (State.count s o).health = s.health := by
  unfold State.count; simp

@[simp] theorem State.pass_keeps (s : State) (n : Nat) :
    (State.pass s n).pending = s.pending ∧ (State.pass s n).size = s.size ∧ (State.pass s n).runStart = s.runStart ∧
    (State.pass s n).free = s.free ∧ (State.pass s n).nextId = s.nextId ∧
    (State.pass s n).wire = s.wire ∧ (State.pass s n).objs = s.objs ∧
    (State.pass s n).keys = s.keys ∧ (State.pass s n).boot = s.boot ∧
    (State.pass s n).tod = s.tod ∧ (State.pass s n).twins = s.twins ∧
    (State.pass s n).ports = s.ports ∧ (State.pass s n).seqs = s.seqs ∧
    (State.pass s n).ops = s.ops ∧ (State.pass s n).waits = s.waits ∧
    (State.pass s n).frank = s.frank ∧ (State.pass s n).table = s.table ∧
    (State.pass s n).shelf = s.shelf ∧ (State.pass s n).mem = s.mem ∧
    (State.pass s n).cons = s.cons ∧ (State.pass s n).past = s.past ∧
    (State.pass s n).tal = s.tal ∧ (State.pass s n).partners = s.partners ∧
    (State.pass s n).bays = s.bays ∧ (State.pass s n).day = s.day ∧
    (State.pass s n).sessions = s.sessions ∧ (State.pass s n).dport = s.dport ∧
    (State.pass s n).events = s.events ∧ (State.pass s n).buses = s.buses ∧
    (State.pass s n).health = s.health := by
  unfold State.pass; simp

@[simp] theorem State.reach_keeps (s : State) (t : Nat) :
    (State.reach s t).pending = s.pending ∧ (State.reach s t).size = s.size ∧ (State.reach s t).runStart = s.runStart ∧
    (State.reach s t).free = s.free ∧ (State.reach s t).nextId = s.nextId ∧
    (State.reach s t).wire = s.wire ∧ (State.reach s t).objs = s.objs ∧
    (State.reach s t).keys = s.keys ∧ (State.reach s t).boot = s.boot ∧
    (State.reach s t).tod = s.tod ∧ (State.reach s t).twins = s.twins ∧
    (State.reach s t).ports = s.ports ∧ (State.reach s t).seqs = s.seqs ∧
    (State.reach s t).ops = s.ops ∧ (State.reach s t).waits = s.waits ∧
    (State.reach s t).frank = s.frank ∧ (State.reach s t).table = s.table ∧
    (State.reach s t).shelf = s.shelf ∧ (State.reach s t).mem = s.mem ∧
    (State.reach s t).cons = s.cons ∧ (State.reach s t).past = s.past ∧
    (State.reach s t).tal = s.tal ∧ (State.reach s t).partners = s.partners ∧
    (State.reach s t).bays = s.bays ∧ (State.reach s t).day = s.day ∧
    (State.reach s t).sessions = s.sessions ∧ (State.reach s t).dport = s.dport ∧
    (State.reach s t).events = s.events ∧ (State.reach s t).buses = s.buses ∧
    (State.reach s t).health = s.health := by
  unfold State.reach; simp

@[simp] theorem State.append_keeps (s : State) (n kind : Nat) (d1 d2 : W64) (d3x : Nat) :
    (State.append s n kind d1 d2 d3x).1.pending = s.pending ∧ (State.append s n kind d1 d2 d3x).1.size = s.size ∧ (State.append s n kind d1 d2 d3x).1.now = s.now ∧
    (State.append s n kind d1 d2 d3x).1.runStart = s.runStart ∧ (State.append s n kind d1 d2 d3x).1.free = s.free ∧
    (State.append s n kind d1 d2 d3x).1.nextId = s.nextId ∧ (State.append s n kind d1 d2 d3x).1.wire = s.wire ∧
    (State.append s n kind d1 d2 d3x).1.keys = s.keys ∧ (State.append s n kind d1 d2 d3x).1.boot = s.boot ∧
    (State.append s n kind d1 d2 d3x).1.tod = s.tod ∧ (State.append s n kind d1 d2 d3x).1.twins = s.twins ∧
    (State.append s n kind d1 d2 d3x).1.ports = s.ports ∧ (State.append s n kind d1 d2 d3x).1.seqs = s.seqs ∧
    (State.append s n kind d1 d2 d3x).1.ops = s.ops ∧ (State.append s n kind d1 d2 d3x).1.waits = s.waits ∧
    (State.append s n kind d1 d2 d3x).1.frank = s.frank ∧ (State.append s n kind d1 d2 d3x).1.table = s.table ∧
    (State.append s n kind d1 d2 d3x).1.shelf = s.shelf ∧ (State.append s n kind d1 d2 d3x).1.mem = s.mem ∧
    (State.append s n kind d1 d2 d3x).1.cons = s.cons ∧ (State.append s n kind d1 d2 d3x).1.past = s.past ∧
    (State.append s n kind d1 d2 d3x).1.tal = s.tal ∧ (State.append s n kind d1 d2 d3x).1.partners = s.partners ∧
    (State.append s n kind d1 d2 d3x).1.bays = s.bays ∧ (State.append s n kind d1 d2 d3x).1.sessions = s.sessions ∧
    (State.append s n kind d1 d2 d3x).1.dport = s.dport ∧ (State.append s n kind d1 d2 d3x).1.events = s.events ∧
    (State.append s n kind d1 d2 d3x).1.buses = s.buses ∧ (State.append s n kind d1 d2 d3x).1.test = s.test ∧
    (State.append s n kind d1 d2 d3x).1.health = s.health := by
  unfold State.append; (repeat' split) <;> simp <;> (repeat' split) <;> simp

@[simp] theorem State.markFlag_keeps (s : State) (b cause : Nat) :
    (State.markFlag s b cause).1.pending = s.pending ∧ (State.markFlag s b cause).1.size = s.size ∧ (State.markFlag s b cause).1.now = s.now ∧
    (State.markFlag s b cause).1.runStart = s.runStart ∧ (State.markFlag s b cause).1.free = s.free ∧
    (State.markFlag s b cause).1.nextId = s.nextId ∧ (State.markFlag s b cause).1.wire = s.wire ∧
    (State.markFlag s b cause).1.keys = s.keys ∧ (State.markFlag s b cause).1.boot = s.boot ∧
    (State.markFlag s b cause).1.tod = s.tod ∧ (State.markFlag s b cause).1.twins = s.twins ∧
    (State.markFlag s b cause).1.ports = s.ports ∧ (State.markFlag s b cause).1.seqs = s.seqs ∧
    (State.markFlag s b cause).1.ops = s.ops ∧ (State.markFlag s b cause).1.waits = s.waits ∧
    (State.markFlag s b cause).1.frank = s.frank ∧ (State.markFlag s b cause).1.table = s.table ∧
    (State.markFlag s b cause).1.shelf = s.shelf ∧ (State.markFlag s b cause).1.mem = s.mem ∧
    (State.markFlag s b cause).1.cons = s.cons ∧ (State.markFlag s b cause).1.past = s.past ∧
    (State.markFlag s b cause).1.tal = s.tal ∧ (State.markFlag s b cause).1.partners = s.partners ∧
    (State.markFlag s b cause).1.bays = s.bays ∧ (State.markFlag s b cause).1.sessions = s.sessions ∧
    (State.markFlag s b cause).1.dport = s.dport ∧ (State.markFlag s b cause).1.events = s.events ∧
    (State.markFlag s b cause).1.buses = s.buses ∧ (State.markFlag s b cause).1.test = s.test ∧
    (State.markFlag s b cause).1.health = s.health := by
  unfold State.markFlag; dsimp only; (repeat' split) <;> simp

@[simp] theorem State.replayCompare_keeps (s : State) (n kind : Nat) (d1 d2 : W64) (d3x : Nat) :
    (State.replayCompare s n kind d1 d2 d3x).pending = s.pending ∧ (State.replayCompare s n kind d1 d2 d3x).size = s.size ∧ (State.replayCompare s n kind d1 d2 d3x).now = s.now ∧
    (State.replayCompare s n kind d1 d2 d3x).runStart = s.runStart ∧ (State.replayCompare s n kind d1 d2 d3x).free = s.free ∧
    (State.replayCompare s n kind d1 d2 d3x).nextId = s.nextId ∧ (State.replayCompare s n kind d1 d2 d3x).wire = s.wire ∧
    (State.replayCompare s n kind d1 d2 d3x).keys = s.keys ∧ (State.replayCompare s n kind d1 d2 d3x).boot = s.boot ∧
    (State.replayCompare s n kind d1 d2 d3x).tod = s.tod ∧ (State.replayCompare s n kind d1 d2 d3x).twins = s.twins ∧
    (State.replayCompare s n kind d1 d2 d3x).ports = s.ports ∧ (State.replayCompare s n kind d1 d2 d3x).seqs = s.seqs ∧
    (State.replayCompare s n kind d1 d2 d3x).ops = s.ops ∧ (State.replayCompare s n kind d1 d2 d3x).waits = s.waits ∧
    (State.replayCompare s n kind d1 d2 d3x).frank = s.frank ∧ (State.replayCompare s n kind d1 d2 d3x).table = s.table ∧
    (State.replayCompare s n kind d1 d2 d3x).shelf = s.shelf ∧ (State.replayCompare s n kind d1 d2 d3x).mem = s.mem ∧
    (State.replayCompare s n kind d1 d2 d3x).cons = s.cons ∧ (State.replayCompare s n kind d1 d2 d3x).past = s.past ∧
    (State.replayCompare s n kind d1 d2 d3x).tal = s.tal ∧ (State.replayCompare s n kind d1 d2 d3x).partners = s.partners ∧
    (State.replayCompare s n kind d1 d2 d3x).bays = s.bays ∧ (State.replayCompare s n kind d1 d2 d3x).sessions = s.sessions ∧
    (State.replayCompare s n kind d1 d2 d3x).dport = s.dport ∧ (State.replayCompare s n kind d1 d2 d3x).events = s.events ∧
    (State.replayCompare s n kind d1 d2 d3x).buses = s.buses ∧ (State.replayCompare s n kind d1 d2 d3x).test = s.test ∧
    (State.replayCompare s n kind d1 d2 d3x).health = s.health := by
  unfold State.replayCompare; (repeat' split) <;> simp <;> (repeat' split) <;> simp

@[simp] theorem State.noteLost_keeps (s : State) (n first count : Nat) :
    (State.noteLost s n first count).pending = s.pending ∧ (State.noteLost s n first count).size = s.size ∧
    (State.noteLost s n first count).now = s.now ∧ (State.noteLost s n first count).runStart = s.runStart ∧
    (State.noteLost s n first count).free = s.free ∧ (State.noteLost s n first count).nextId = s.nextId ∧
    (State.noteLost s n first count).wire = s.wire ∧ (State.noteLost s n first count).keys = s.keys ∧
    (State.noteLost s n first count).boot = s.boot ∧ (State.noteLost s n first count).tod = s.tod ∧
    (State.noteLost s n first count).twins = s.twins ∧ (State.noteLost s n first count).ports = s.ports ∧
    (State.noteLost s n first count).seqs = s.seqs ∧ (State.noteLost s n first count).ops = s.ops ∧
    (State.noteLost s n first count).waits = s.waits ∧ (State.noteLost s n first count).frank = s.frank ∧
    (State.noteLost s n first count).table = s.table ∧ (State.noteLost s n first count).shelf = s.shelf ∧
    (State.noteLost s n first count).mem = s.mem ∧ (State.noteLost s n first count).cons = s.cons ∧
    (State.noteLost s n first count).past = s.past ∧ (State.noteLost s n first count).tal = s.tal ∧
    (State.noteLost s n first count).partners = s.partners ∧ (State.noteLost s n first count).bays = s.bays ∧
    (State.noteLost s n first count).sessions = s.sessions ∧ (State.noteLost s n first count).dport = s.dport ∧
    (State.noteLost s n first count).events = s.events ∧ (State.noteLost s n first count).buses = s.buses ∧
    (State.noteLost s n first count).test = s.test ∧ (State.noteLost s n first count).health = s.health := by
  unfold State.noteLost; split <;> simp

@[simp] theorem State.setFlag_keeps (s : State) (b cause : Nat) :
    (State.setFlag s b cause).pending = s.pending ∧ (State.setFlag s b cause).size = s.size ∧ (State.setFlag s b cause).now = s.now ∧
    (State.setFlag s b cause).runStart = s.runStart ∧ (State.setFlag s b cause).free = s.free ∧
    (State.setFlag s b cause).nextId = s.nextId ∧ (State.setFlag s b cause).wire = s.wire ∧
    (State.setFlag s b cause).keys = s.keys ∧ (State.setFlag s b cause).boot = s.boot ∧
    (State.setFlag s b cause).tod = s.tod ∧ (State.setFlag s b cause).twins = s.twins ∧
    (State.setFlag s b cause).ports = s.ports ∧ (State.setFlag s b cause).seqs = s.seqs ∧
    (State.setFlag s b cause).ops = s.ops ∧ (State.setFlag s b cause).waits = s.waits ∧
    (State.setFlag s b cause).frank = s.frank ∧ (State.setFlag s b cause).table = s.table ∧
    (State.setFlag s b cause).shelf = s.shelf ∧ (State.setFlag s b cause).mem = s.mem ∧
    (State.setFlag s b cause).cons = s.cons ∧ (State.setFlag s b cause).past = s.past ∧
    (State.setFlag s b cause).tal = s.tal ∧ (State.setFlag s b cause).partners = s.partners ∧
    (State.setFlag s b cause).bays = s.bays ∧ (State.setFlag s b cause).sessions = s.sessions ∧
    (State.setFlag s b cause).dport = s.dport ∧ (State.setFlag s b cause).events = s.events ∧
    (State.setFlag s b cause).buses = s.buses ∧ (State.setFlag s b cause).test = s.test ∧
    (State.setFlag s b cause).health = s.health := by
  unfold State.setFlag; simp only; split <;> simp

@[simp] theorem State.record_keeps (s : State) (n kind : Nat) (d1 d2 : W64) (d3x : Nat) (always : Bool) :
    (State.record s n kind d1 d2 d3x always).pending = s.pending ∧ (State.record s n kind d1 d2 d3x always).size = s.size ∧ (State.record s n kind d1 d2 d3x always).now = s.now ∧
    (State.record s n kind d1 d2 d3x always).runStart = s.runStart ∧ (State.record s n kind d1 d2 d3x always).free = s.free ∧
    (State.record s n kind d1 d2 d3x always).nextId = s.nextId ∧ (State.record s n kind d1 d2 d3x always).wire = s.wire ∧
    (State.record s n kind d1 d2 d3x always).keys = s.keys ∧ (State.record s n kind d1 d2 d3x always).boot = s.boot ∧
    (State.record s n kind d1 d2 d3x always).tod = s.tod ∧ (State.record s n kind d1 d2 d3x always).twins = s.twins ∧
    (State.record s n kind d1 d2 d3x always).ports = s.ports ∧ (State.record s n kind d1 d2 d3x always).seqs = s.seqs ∧
    (State.record s n kind d1 d2 d3x always).ops = s.ops ∧ (State.record s n kind d1 d2 d3x always).waits = s.waits ∧
    (State.record s n kind d1 d2 d3x always).frank = s.frank ∧ (State.record s n kind d1 d2 d3x always).table = s.table ∧
    (State.record s n kind d1 d2 d3x always).shelf = s.shelf ∧ (State.record s n kind d1 d2 d3x always).mem = s.mem ∧
    (State.record s n kind d1 d2 d3x always).cons = s.cons ∧ (State.record s n kind d1 d2 d3x always).past = s.past ∧
    (State.record s n kind d1 d2 d3x always).tal = s.tal ∧ (State.record s n kind d1 d2 d3x always).partners = s.partners ∧
    (State.record s n kind d1 d2 d3x always).bays = s.bays ∧ (State.record s n kind d1 d2 d3x always).sessions = s.sessions ∧
    (State.record s n kind d1 d2 d3x always).dport = s.dport ∧ (State.record s n kind d1 d2 d3x always).events = s.events ∧
    (State.record s n kind d1 d2 d3x always).buses = s.buses ∧ (State.record s n kind d1 d2 d3x always).test = s.test ∧
    (State.record s n kind d1 d2 d3x always).health = s.health := by
  unfold State.record; (repeat' split) <;> simp <;> (repeat' split) <;> simp

@[simp] theorem State.stamp_keeps (s : State) (port : Nat) (h : Hdr) (f : ItemStamp → ItemStamp) :
    (State.stamp s port h f).pending = s.pending ∧ (State.stamp s port h f).size = s.size ∧ (State.stamp s port h f).now = s.now ∧
    (State.stamp s port h f).runStart = s.runStart ∧ (State.stamp s port h f).free = s.free ∧
    (State.stamp s port h f).nextId = s.nextId ∧ (State.stamp s port h f).wire = s.wire ∧
    (State.stamp s port h f).objs = s.objs ∧ (State.stamp s port h f).keys = s.keys ∧
    (State.stamp s port h f).boot = s.boot ∧ (State.stamp s port h f).tod = s.tod ∧
    (State.stamp s port h f).twins = s.twins ∧ (State.stamp s port h f).ports = s.ports ∧
    (State.stamp s port h f).seqs = s.seqs ∧ (State.stamp s port h f).ops = s.ops ∧
    (State.stamp s port h f).waits = s.waits ∧ (State.stamp s port h f).frank = s.frank ∧
    (State.stamp s port h f).table = s.table ∧ (State.stamp s port h f).shelf = s.shelf ∧
    (State.stamp s port h f).mem = s.mem ∧ (State.stamp s port h f).cons = s.cons ∧
    (State.stamp s port h f).past = s.past ∧ (State.stamp s port h f).tal = s.tal ∧
    (State.stamp s port h f).partners = s.partners ∧ (State.stamp s port h f).bays = s.bays ∧
    (State.stamp s port h f).day = s.day ∧ (State.stamp s port h f).sessions = s.sessions ∧
    (State.stamp s port h f).dport = s.dport ∧ (State.stamp s port h f).events = s.events ∧
    (State.stamp s port h f).buses = s.buses ∧ (State.stamp s port h f).health = s.health := by
  unfold State.stamp; simp

@[simp] theorem State.commitItem_keeps (s : State) (port : Nat) (h : Hdr) (st : Nat) (t6 : Option Nat) :
    (State.commitItem s port h st t6).pending = s.pending ∧ (State.commitItem s port h st t6).size = s.size ∧ (State.commitItem s port h st t6).now = s.now ∧
    (State.commitItem s port h st t6).runStart = s.runStart ∧ (State.commitItem s port h st t6).free = s.free ∧
    (State.commitItem s port h st t6).nextId = s.nextId ∧ (State.commitItem s port h st t6).wire = s.wire ∧
    (State.commitItem s port h st t6).keys = s.keys ∧ (State.commitItem s port h st t6).boot = s.boot ∧
    (State.commitItem s port h st t6).tod = s.tod ∧ (State.commitItem s port h st t6).twins = s.twins ∧
    (State.commitItem s port h st t6).ports = s.ports ∧ (State.commitItem s port h st t6).seqs = s.seqs ∧
    (State.commitItem s port h st t6).ops = s.ops ∧ (State.commitItem s port h st t6).waits = s.waits ∧
    (State.commitItem s port h st t6).frank = s.frank ∧ (State.commitItem s port h st t6).table = s.table ∧
    (State.commitItem s port h st t6).shelf = s.shelf ∧ (State.commitItem s port h st t6).mem = s.mem ∧
    (State.commitItem s port h st t6).cons = s.cons ∧ (State.commitItem s port h st t6).past = s.past ∧
    (State.commitItem s port h st t6).tal = s.tal ∧ (State.commitItem s port h st t6).partners = s.partners ∧
    (State.commitItem s port h st t6).bays = s.bays ∧ (State.commitItem s port h st t6).day = s.day ∧
    (State.commitItem s port h st t6).sessions = s.sessions ∧ (State.commitItem s port h st t6).dport = s.dport ∧
    (State.commitItem s port h st t6).events = s.events ∧ (State.commitItem s port h st t6).buses = s.buses ∧
    (State.commitItem s port h st t6).health = s.health := by
  unfold State.commitItem; (repeat' split) <;> simp

@[simp] theorem State.depart_keeps (s : State) (p : Nat) (h : Hdr) (data : List Byte) (esc : Bool) :
    (State.depart s p h data esc).pending = s.pending ∧ (State.depart s p h data esc).size = s.size ∧ (State.depart s p h data esc).now = s.now ∧
    (State.depart s p h data esc).runStart = s.runStart ∧ (State.depart s p h data esc).free = s.free ∧
    (State.depart s p h data esc).nextId = s.nextId ∧ (State.depart s p h data esc).keys = s.keys ∧
    (State.depart s p h data esc).boot = s.boot ∧ (State.depart s p h data esc).tod = s.tod ∧
    (State.depart s p h data esc).twins = s.twins ∧ (State.depart s p h data esc).seqs = s.seqs ∧
    (State.depart s p h data esc).ops = s.ops ∧ (State.depart s p h data esc).waits = s.waits ∧
    (State.depart s p h data esc).frank = s.frank ∧ (State.depart s p h data esc).table = s.table ∧
    (State.depart s p h data esc).shelf = s.shelf ∧ (State.depart s p h data esc).mem = s.mem ∧
    (State.depart s p h data esc).cons = s.cons ∧ (State.depart s p h data esc).past = s.past ∧
    (State.depart s p h data esc).tal = s.tal ∧ (State.depart s p h data esc).partners = s.partners ∧
    (State.depart s p h data esc).bays = s.bays ∧ (State.depart s p h data esc).day = s.day ∧
    (State.depart s p h data esc).sessions = s.sessions ∧ (State.depart s p h data esc).dport = s.dport ∧
    (State.depart s p h data esc).events = s.events ∧ (State.depart s p h data esc).buses = s.buses ∧
    (State.depart s p h data esc).health = s.health := by
  unfold State.depart; simp

@[simp] theorem State.send_keeps (s : State) (p : Nat) (h : Hdr) (data : List Byte) :
    (State.send s p h data).pending = s.pending ∧ (State.send s p h data).size = s.size ∧ (State.send s p h data).now = s.now ∧
    (State.send s p h data).runStart = s.runStart ∧ (State.send s p h data).free = s.free ∧
    (State.send s p h data).nextId = s.nextId ∧ (State.send s p h data).keys = s.keys ∧
    (State.send s p h data).boot = s.boot ∧ (State.send s p h data).tod = s.tod ∧
    (State.send s p h data).twins = s.twins ∧ (State.send s p h data).seqs = s.seqs ∧
    (State.send s p h data).ops = s.ops ∧ (State.send s p h data).waits = s.waits ∧
    (State.send s p h data).frank = s.frank ∧ (State.send s p h data).table = s.table ∧
    (State.send s p h data).shelf = s.shelf ∧ (State.send s p h data).mem = s.mem ∧
    (State.send s p h data).cons = s.cons ∧ (State.send s p h data).past = s.past ∧
    (State.send s p h data).tal = s.tal ∧ (State.send s p h data).partners = s.partners ∧
    (State.send s p h data).bays = s.bays ∧ (State.send s p h data).day = s.day ∧
    (State.send s p h data).sessions = s.sessions ∧ (State.send s p h data).dport = s.dport ∧
    (State.send s p h data).events = s.events ∧ (State.send s p h data).buses = s.buses ∧
    (State.send s p h data).health = s.health := by
  unfold State.send; simp

@[simp] theorem State.jActs_keeps (s : State) (i w : Nat) :
    (State.jActs s i w).2.pending = s.pending ∧ (State.jActs s i w).2.size = s.size ∧ (State.jActs s i w).2.now = s.now ∧
    (State.jActs s i w).2.runStart = s.runStart ∧ (State.jActs s i w).2.free = s.free ∧
    (State.jActs s i w).2.nextId = s.nextId ∧ (State.jActs s i w).2.wire = s.wire ∧
    (State.jActs s i w).2.keys = s.keys ∧ (State.jActs s i w).2.boot = s.boot ∧
    (State.jActs s i w).2.tod = s.tod ∧ (State.jActs s i w).2.twins = s.twins ∧
    (State.jActs s i w).2.ports = s.ports ∧ (State.jActs s i w).2.seqs = s.seqs ∧
    (State.jActs s i w).2.ops = s.ops ∧ (State.jActs s i w).2.waits = s.waits ∧
    (State.jActs s i w).2.frank = s.frank ∧ (State.jActs s i w).2.table = s.table ∧
    (State.jActs s i w).2.shelf = s.shelf ∧ (State.jActs s i w).2.mem = s.mem ∧
    (State.jActs s i w).2.cons = s.cons ∧ (State.jActs s i w).2.past = s.past ∧
    (State.jActs s i w).2.tal = s.tal ∧ (State.jActs s i w).2.partners = s.partners ∧
    (State.jActs s i w).2.bays = s.bays ∧ (State.jActs s i w).2.day = s.day ∧
    (State.jActs s i w).2.sessions = s.sessions ∧ (State.jActs s i w).2.dport = s.dport ∧
    (State.jActs s i w).2.events = s.events ∧ (State.jActs s i w).2.buses = s.buses ∧
    (State.jActs s i w).2.health = s.health := by
  unfold State.jActs; (repeat' split) <;> simp <;> (repeat' split) <;> simp

@[simp] theorem State.jostleHold_keeps (s : State) (p vc : Nat) :
    (State.jostleHold s p vc).pending = s.pending ∧ (State.jostleHold s p vc).size = s.size ∧ (State.jostleHold s p vc).now = s.now ∧
    (State.jostleHold s p vc).runStart = s.runStart ∧ (State.jostleHold s p vc).free = s.free ∧
    (State.jostleHold s p vc).nextId = s.nextId ∧ (State.jostleHold s p vc).wire = s.wire ∧
    (State.jostleHold s p vc).keys = s.keys ∧ (State.jostleHold s p vc).boot = s.boot ∧
    (State.jostleHold s p vc).tod = s.tod ∧ (State.jostleHold s p vc).twins = s.twins ∧
    (State.jostleHold s p vc).seqs = s.seqs ∧ (State.jostleHold s p vc).ops = s.ops ∧
    (State.jostleHold s p vc).waits = s.waits ∧ (State.jostleHold s p vc).frank = s.frank ∧
    (State.jostleHold s p vc).table = s.table ∧ (State.jostleHold s p vc).shelf = s.shelf ∧
    (State.jostleHold s p vc).mem = s.mem ∧ (State.jostleHold s p vc).cons = s.cons ∧
    (State.jostleHold s p vc).past = s.past ∧ (State.jostleHold s p vc).tal = s.tal ∧
    (State.jostleHold s p vc).partners = s.partners ∧ (State.jostleHold s p vc).bays = s.bays ∧
    (State.jostleHold s p vc).day = s.day ∧ (State.jostleHold s p vc).sessions = s.sessions ∧
    (State.jostleHold s p vc).dport = s.dport ∧ (State.jostleHold s p vc).events = s.events ∧
    (State.jostleHold s p vc).buses = s.buses ∧ (State.jostleHold s p vc).health = s.health := by
  unfold State.jostleHold
  split
  · simp
  · refine foldl_rel (fun (a b : State) => b.pending = a.pending ∧ b.size = a.size ∧ b.now = a.now ∧ b.runStart = a.runStart ∧ b.free = a.free ∧ b.nextId = a.nextId ∧ b.wire = a.wire ∧ b.keys = a.keys ∧ b.boot = a.boot ∧ b.tod = a.tod ∧ b.twins = a.twins ∧ b.seqs = a.seqs ∧ b.ops = a.ops ∧ b.waits = a.waits ∧ b.frank = a.frank ∧ b.table = a.table ∧ b.shelf = a.shelf ∧ b.mem = a.mem ∧ b.cons = a.cons ∧ b.past = a.past ∧ b.tal = a.tal ∧ b.partners = a.partners ∧ b.bays = a.bays ∧ b.day = a.day ∧ b.sessions = a.sessions ∧ b.dport = a.dport ∧ b.events = a.events ∧ b.buses = a.buses ∧ b.health = a.health)
      (fun a => ⟨rfl, rfl, rfl, rfl, rfl, rfl, rfl, rfl, rfl, rfl, rfl, rfl, rfl, rfl, rfl, rfl, rfl, rfl, rfl, rfl, rfl, rfl, rfl, rfl, rfl, rfl, rfl, rfl, rfl⟩) (fun a b c h k => by simp_all) _ (fun t x => ?_) _ _
    have hj := State.jActs_keeps t x.1 x.2
    split
    · simp
    · split <;> rename_i hu <;> rw [hu] at hj <;> (try simp) <;> simp_all

@[simp] theorem State.freePool_keeps (s : State) (p vc n : Nat) :
    (State.freePool s p vc n).pending = s.pending ∧ (State.freePool s p vc n).size = s.size ∧ (State.freePool s p vc n).now = s.now ∧
    (State.freePool s p vc n).runStart = s.runStart ∧ (State.freePool s p vc n).free = s.free ∧
    (State.freePool s p vc n).nextId = s.nextId ∧ (State.freePool s p vc n).keys = s.keys ∧
    (State.freePool s p vc n).boot = s.boot ∧ (State.freePool s p vc n).tod = s.tod ∧
    (State.freePool s p vc n).twins = s.twins ∧ (State.freePool s p vc n).seqs = s.seqs ∧
    (State.freePool s p vc n).ops = s.ops ∧ (State.freePool s p vc n).waits = s.waits ∧
    (State.freePool s p vc n).frank = s.frank ∧ (State.freePool s p vc n).table = s.table ∧
    (State.freePool s p vc n).shelf = s.shelf ∧ (State.freePool s p vc n).mem = s.mem ∧
    (State.freePool s p vc n).cons = s.cons ∧ (State.freePool s p vc n).past = s.past ∧
    (State.freePool s p vc n).tal = s.tal ∧ (State.freePool s p vc n).partners = s.partners ∧
    (State.freePool s p vc n).bays = s.bays ∧ (State.freePool s p vc n).day = s.day ∧
    (State.freePool s p vc n).sessions = s.sessions ∧ (State.freePool s p vc n).dport = s.dport ∧
    (State.freePool s p vc n).events = s.events ∧ (State.freePool s p vc n).buses = s.buses ∧
    (State.freePool s p vc n).health = s.health := by
  unfold State.freePool; (repeat' split) <;> simp <;> (repeat' split) <;> simp

@[simp] theorem State.enablePort_keeps (s : State) (p : Nat) :
    (State.enablePort s p).pending = s.pending ∧ (State.enablePort s p).size = s.size ∧ (State.enablePort s p).now = s.now ∧
    (State.enablePort s p).runStart = s.runStart ∧ (State.enablePort s p).free = s.free ∧
    (State.enablePort s p).nextId = s.nextId ∧ (State.enablePort s p).objs = s.objs ∧
    (State.enablePort s p).keys = s.keys ∧ (State.enablePort s p).boot = s.boot ∧
    (State.enablePort s p).tod = s.tod ∧ (State.enablePort s p).twins = s.twins ∧
    (State.enablePort s p).seqs = s.seqs ∧ (State.enablePort s p).ops = s.ops ∧
    (State.enablePort s p).waits = s.waits ∧ (State.enablePort s p).frank = s.frank ∧
    (State.enablePort s p).table = s.table ∧ (State.enablePort s p).shelf = s.shelf ∧
    (State.enablePort s p).mem = s.mem ∧ (State.enablePort s p).cons = s.cons ∧
    (State.enablePort s p).past = s.past ∧ (State.enablePort s p).tal = s.tal ∧
    (State.enablePort s p).partners = s.partners ∧ (State.enablePort s p).bays = s.bays ∧
    (State.enablePort s p).day = s.day ∧ (State.enablePort s p).sessions = s.sessions ∧
    (State.enablePort s p).dport = s.dport ∧ (State.enablePort s p).events = s.events ∧
    (State.enablePort s p).buses = s.buses ∧ (State.enablePort s p).test = s.test ∧
    (State.enablePort s p).health = s.health := by
  unfold State.enablePort; simp

@[simp] theorem State.tallyAnswer_keeps (s : State) (st : BitVec 4) :
    (State.tallyAnswer s st).pending = s.pending ∧ (State.tallyAnswer s st).size = s.size ∧ (State.tallyAnswer s st).now = s.now ∧
    (State.tallyAnswer s st).runStart = s.runStart ∧ (State.tallyAnswer s st).free = s.free ∧
    (State.tallyAnswer s st).nextId = s.nextId ∧ (State.tallyAnswer s st).wire = s.wire ∧
    (State.tallyAnswer s st).keys = s.keys ∧ (State.tallyAnswer s st).boot = s.boot ∧
    (State.tallyAnswer s st).tod = s.tod ∧ (State.tallyAnswer s st).twins = s.twins ∧
    (State.tallyAnswer s st).ports = s.ports ∧ (State.tallyAnswer s st).seqs = s.seqs ∧
    (State.tallyAnswer s st).ops = s.ops ∧ (State.tallyAnswer s st).waits = s.waits ∧
    (State.tallyAnswer s st).frank = s.frank ∧ (State.tallyAnswer s st).table = s.table ∧
    (State.tallyAnswer s st).shelf = s.shelf ∧ (State.tallyAnswer s st).mem = s.mem ∧
    (State.tallyAnswer s st).cons = s.cons ∧ (State.tallyAnswer s st).past = s.past ∧
    (State.tallyAnswer s st).tal = s.tal ∧ (State.tallyAnswer s st).partners = s.partners ∧
    (State.tallyAnswer s st).bays = s.bays ∧ (State.tallyAnswer s st).day = s.day ∧
    (State.tallyAnswer s st).sessions = s.sessions ∧ (State.tallyAnswer s st).dport = s.dport ∧
    (State.tallyAnswer s st).events = s.events ∧ (State.tallyAnswer s st).buses = s.buses ∧
    (State.tallyAnswer s st).test = s.test ∧ (State.tallyAnswer s st).health = s.health := by
  unfold State.tallyAnswer; simp

@[simp] theorem State.noteAnswer_keeps (s : State) (a : Arrival) :
    (State.noteAnswer s a).pending = s.pending ∧ (State.noteAnswer s a).size = s.size ∧ (State.noteAnswer s a).now = s.now ∧
    (State.noteAnswer s a).runStart = s.runStart ∧ (State.noteAnswer s a).free = s.free ∧
    (State.noteAnswer s a).nextId = s.nextId ∧ (State.noteAnswer s a).wire = s.wire ∧
    (State.noteAnswer s a).objs = s.objs ∧ (State.noteAnswer s a).keys = s.keys ∧
    (State.noteAnswer s a).boot = s.boot ∧ (State.noteAnswer s a).tod = s.tod ∧
    (State.noteAnswer s a).twins = s.twins ∧ (State.noteAnswer s a).ports = s.ports ∧
    (State.noteAnswer s a).ops = s.ops ∧ (State.noteAnswer s a).waits = s.waits ∧
    (State.noteAnswer s a).frank = s.frank ∧ (State.noteAnswer s a).table = s.table ∧
    (State.noteAnswer s a).shelf = s.shelf ∧ (State.noteAnswer s a).mem = s.mem ∧
    (State.noteAnswer s a).cons = s.cons ∧ (State.noteAnswer s a).past = s.past ∧
    (State.noteAnswer s a).tal = s.tal ∧ (State.noteAnswer s a).partners = s.partners ∧
    (State.noteAnswer s a).bays = s.bays ∧ (State.noteAnswer s a).day = s.day ∧
    (State.noteAnswer s a).sessions = s.sessions ∧ (State.noteAnswer s a).dport = s.dport ∧
    (State.noteAnswer s a).events = s.events ∧ (State.noteAnswer s a).buses = s.buses ∧
    (State.noteAnswer s a).test = s.test ∧ (State.noteAnswer s a).health = s.health := by
  unfold State.noteAnswer; simp

@[simp] theorem State.holdOut_keeps (s : State) (o : HeldOut) :
    (State.holdOut s o).pending = s.pending ∧ (State.holdOut s o).size = s.size ∧ (State.holdOut s o).now = s.now ∧
    (State.holdOut s o).runStart = s.runStart ∧ (State.holdOut s o).free = s.free ∧ (State.holdOut s o).nextId = s.nextId ∧
    (State.holdOut s o).wire = s.wire ∧ (State.holdOut s o).objs = s.objs ∧ (State.holdOut s o).keys = s.keys ∧
    (State.holdOut s o).boot = s.boot ∧ (State.holdOut s o).tod = s.tod ∧ (State.holdOut s o).ports = s.ports ∧
    (State.holdOut s o).seqs = s.seqs ∧ (State.holdOut s o).ops = s.ops ∧ (State.holdOut s o).waits = s.waits ∧
    (State.holdOut s o).frank = s.frank ∧ (State.holdOut s o).table = s.table ∧ (State.holdOut s o).shelf = s.shelf ∧
    (State.holdOut s o).mem = s.mem ∧ (State.holdOut s o).cons = s.cons ∧ (State.holdOut s o).past = s.past ∧
    (State.holdOut s o).tal = s.tal ∧ (State.holdOut s o).partners = s.partners ∧ (State.holdOut s o).bays = s.bays ∧
    (State.holdOut s o).day = s.day ∧ (State.holdOut s o).sessions = s.sessions ∧ (State.holdOut s o).dport = s.dport ∧
    (State.holdOut s o).events = s.events ∧ (State.holdOut s o).buses = s.buses ∧ (State.holdOut s o).test = s.test ∧
    (State.holdOut s o).health = s.health :=
  ⟨rfl, rfl, rfl, rfl, rfl, rfl, rfl, rfl, rfl, rfl, rfl, rfl, rfl, rfl, rfl, rfl, rfl, rfl, rfl, rfl, rfl, rfl, rfl, rfl, rfl, rfl, rfl, rfl, rfl, rfl, rfl⟩

@[simp] theorem State.sendAnswer_keeps (s : State) (a : Arrival) (h : Hdr) (data : List Byte) :
    (State.sendAnswer s a h data).pending = s.pending ∧ (State.sendAnswer s a h data).size = s.size ∧ (State.sendAnswer s a h data).now = s.now ∧
    (State.sendAnswer s a h data).runStart = s.runStart ∧ (State.sendAnswer s a h data).free = s.free ∧
    (State.sendAnswer s a h data).nextId = s.nextId ∧ (State.sendAnswer s a h data).keys = s.keys ∧
    (State.sendAnswer s a h data).boot = s.boot ∧ (State.sendAnswer s a h data).tod = s.tod ∧
    (State.sendAnswer s a h data).twins = s.twins ∧ (State.sendAnswer s a h data).ops = s.ops ∧
    (State.sendAnswer s a h data).waits = s.waits ∧ (State.sendAnswer s a h data).frank = s.frank ∧
    (State.sendAnswer s a h data).table = s.table ∧ (State.sendAnswer s a h data).shelf = s.shelf ∧
    (State.sendAnswer s a h data).mem = s.mem ∧ (State.sendAnswer s a h data).cons = s.cons ∧
    (State.sendAnswer s a h data).past = s.past ∧ (State.sendAnswer s a h data).tal = s.tal ∧
    (State.sendAnswer s a h data).partners = s.partners ∧ (State.sendAnswer s a h data).bays = s.bays ∧
    (State.sendAnswer s a h data).day = s.day ∧ (State.sendAnswer s a h data).sessions = s.sessions ∧
    (State.sendAnswer s a h data).dport = s.dport ∧ (State.sendAnswer s a h data).events = s.events ∧
    (State.sendAnswer s a h data).buses = s.buses ∧ (State.sendAnswer s a h data).health = s.health := by
  unfold State.sendAnswer; simp

@[simp] theorem State.answerWith_keeps (s : State) (a : Arrival) (h : Hdr) (data : List Byte) :
    (State.answerWith s a h data).pending = s.pending ∧ (State.answerWith s a h data).size = s.size ∧ (State.answerWith s a h data).now = s.now ∧
    (State.answerWith s a h data).runStart = s.runStart ∧ (State.answerWith s a h data).free = s.free ∧
    (State.answerWith s a h data).nextId = s.nextId ∧ (State.answerWith s a h data).keys = s.keys ∧
    (State.answerWith s a h data).boot = s.boot ∧ (State.answerWith s a h data).tod = s.tod ∧ (State.answerWith s a h data).ops = s.ops ∧
    (State.answerWith s a h data).waits = s.waits ∧ (State.answerWith s a h data).frank = s.frank ∧
    (State.answerWith s a h data).table = s.table ∧ (State.answerWith s a h data).shelf = s.shelf ∧
    (State.answerWith s a h data).mem = s.mem ∧ (State.answerWith s a h data).cons = s.cons ∧
    (State.answerWith s a h data).past = s.past ∧ (State.answerWith s a h data).tal = s.tal ∧
    (State.answerWith s a h data).partners = s.partners ∧ (State.answerWith s a h data).bays = s.bays ∧
    (State.answerWith s a h data).day = s.day ∧ (State.answerWith s a h data).sessions = s.sessions ∧
    (State.answerWith s a h data).dport = s.dport ∧ (State.answerWith s a h data).events = s.events ∧
    (State.answerWith s a h data).buses = s.buses ∧ (State.answerWith s a h data).health = s.health := by
  unfold State.answerWith; simp

@[simp] theorem State.cmp_keeps (s : State) (a : Arrival) (st : BitVec 4) :
    (State.cmp s a st).pending = s.pending ∧ (State.cmp s a st).size = s.size ∧ (State.cmp s a st).now = s.now ∧
    (State.cmp s a st).runStart = s.runStart ∧ (State.cmp s a st).free = s.free ∧
    (State.cmp s a st).nextId = s.nextId ∧ (State.cmp s a st).keys = s.keys ∧
    (State.cmp s a st).boot = s.boot ∧ (State.cmp s a st).tod = s.tod ∧ (State.cmp s a st).ops = s.ops ∧
    (State.cmp s a st).waits = s.waits ∧ (State.cmp s a st).frank = s.frank ∧
    (State.cmp s a st).table = s.table ∧ (State.cmp s a st).shelf = s.shelf ∧
    (State.cmp s a st).mem = s.mem ∧ (State.cmp s a st).cons = s.cons ∧
    (State.cmp s a st).past = s.past ∧ (State.cmp s a st).tal = s.tal ∧
    (State.cmp s a st).partners = s.partners ∧ (State.cmp s a st).bays = s.bays ∧
    (State.cmp s a st).day = s.day ∧ (State.cmp s a st).sessions = s.sessions ∧
    (State.cmp s a st).dport = s.dport ∧ (State.cmp s a st).events = s.events ∧
    (State.cmp s a st).buses = s.buses ∧ (State.cmp s a st).health = s.health := by
  unfold State.cmp; simp

@[simp] theorem State.atomr_keeps (s : State) (a : Arrival) (st : BitVec 4) (old : W64) :
    (State.atomr s a st old).pending = s.pending ∧ (State.atomr s a st old).size = s.size ∧ (State.atomr s a st old).now = s.now ∧
    (State.atomr s a st old).runStart = s.runStart ∧ (State.atomr s a st old).free = s.free ∧
    (State.atomr s a st old).nextId = s.nextId ∧ (State.atomr s a st old).keys = s.keys ∧
    (State.atomr s a st old).boot = s.boot ∧ (State.atomr s a st old).tod = s.tod ∧ (State.atomr s a st old).ops = s.ops ∧
    (State.atomr s a st old).waits = s.waits ∧ (State.atomr s a st old).frank = s.frank ∧
    (State.atomr s a st old).table = s.table ∧ (State.atomr s a st old).shelf = s.shelf ∧
    (State.atomr s a st old).mem = s.mem ∧ (State.atomr s a st old).cons = s.cons ∧
    (State.atomr s a st old).past = s.past ∧ (State.atomr s a st old).tal = s.tal ∧
    (State.atomr s a st old).partners = s.partners ∧ (State.atomr s a st old).bays = s.bays ∧
    (State.atomr s a st old).day = s.day ∧ (State.atomr s a st old).sessions = s.sessions ∧
    (State.atomr s a st old).dport = s.dport ∧ (State.atomr s a st old).events = s.events ∧
    (State.atomr s a st old).buses = s.buses ∧ (State.atomr s a st old).health = s.health := by
  unfold State.atomr; simp

@[simp] theorem State.mgmtr_keeps (s : State) (a : Arrival) (st : BitVec 4) (abort : Nat) (value : List Byte) :
    (State.mgmtr s a st abort value).pending = s.pending ∧ (State.mgmtr s a st abort value).size = s.size ∧ (State.mgmtr s a st abort value).now = s.now ∧
    (State.mgmtr s a st abort value).runStart = s.runStart ∧ (State.mgmtr s a st abort value).free = s.free ∧
    (State.mgmtr s a st abort value).nextId = s.nextId ∧ (State.mgmtr s a st abort value).keys = s.keys ∧
    (State.mgmtr s a st abort value).boot = s.boot ∧ (State.mgmtr s a st abort value).tod = s.tod ∧ (State.mgmtr s a st abort value).ops = s.ops ∧
    (State.mgmtr s a st abort value).waits = s.waits ∧ (State.mgmtr s a st abort value).frank = s.frank ∧
    (State.mgmtr s a st abort value).table = s.table ∧ (State.mgmtr s a st abort value).shelf = s.shelf ∧
    (State.mgmtr s a st abort value).mem = s.mem ∧ (State.mgmtr s a st abort value).cons = s.cons ∧
    (State.mgmtr s a st abort value).past = s.past ∧ (State.mgmtr s a st abort value).tal = s.tal ∧
    (State.mgmtr s a st abort value).partners = s.partners ∧ (State.mgmtr s a st abort value).bays = s.bays ∧
    (State.mgmtr s a st abort value).day = s.day ∧ (State.mgmtr s a st abort value).sessions = s.sessions ∧
    (State.mgmtr s a st abort value).dport = s.dport ∧ (State.mgmtr s a st abort value).events = s.events ∧
    (State.mgmtr s a st abort value).buses = s.buses ∧ (State.mgmtr s a st abort value).health = s.health := by
  unfold State.mgmtr; simp

@[simp] theorem State.rdr_keeps (s : State) (a : Arrival) (st : BitVec 4) (data : List Byte) (bad : List Nat) :
    (State.rdr s a st data bad).pending = s.pending ∧ (State.rdr s a st data bad).size = s.size ∧ (State.rdr s a st data bad).now = s.now ∧
    (State.rdr s a st data bad).runStart = s.runStart ∧ (State.rdr s a st data bad).free = s.free ∧
    (State.rdr s a st data bad).nextId = s.nextId ∧ (State.rdr s a st data bad).keys = s.keys ∧
    (State.rdr s a st data bad).boot = s.boot ∧ (State.rdr s a st data bad).tod = s.tod ∧ (State.rdr s a st data bad).ops = s.ops ∧
    (State.rdr s a st data bad).waits = s.waits ∧ (State.rdr s a st data bad).frank = s.frank ∧
    (State.rdr s a st data bad).table = s.table ∧ (State.rdr s a st data bad).shelf = s.shelf ∧
    (State.rdr s a st data bad).mem = s.mem ∧ (State.rdr s a st data bad).cons = s.cons ∧
    (State.rdr s a st data bad).past = s.past ∧ (State.rdr s a st data bad).tal = s.tal ∧
    (State.rdr s a st data bad).partners = s.partners ∧ (State.rdr s a st data bad).bays = s.bays ∧
    (State.rdr s a st data bad).day = s.day ∧ (State.rdr s a st data bad).sessions = s.sessions ∧
    (State.rdr s a st data bad).dport = s.dport ∧ (State.rdr s a st data bad).events = s.events ∧
    (State.rdr s a st data bad).buses = s.buses ∧ (State.rdr s a st data bad).health = s.health := by
  unfold State.rdr; simp

@[simp] theorem State.refuse_keeps (s : State) (a : Arrival) (st : BitVec 4) :
    (State.refuse s a st).pending = s.pending ∧ (State.refuse s a st).size = s.size ∧ (State.refuse s a st).now = s.now ∧
    (State.refuse s a st).runStart = s.runStart ∧ (State.refuse s a st).free = s.free ∧
    (State.refuse s a st).nextId = s.nextId ∧ (State.refuse s a st).keys = s.keys ∧
    (State.refuse s a st).boot = s.boot ∧ (State.refuse s a st).tod = s.tod ∧ (State.refuse s a st).ops = s.ops ∧
    (State.refuse s a st).waits = s.waits ∧ (State.refuse s a st).frank = s.frank ∧
    (State.refuse s a st).table = s.table ∧ (State.refuse s a st).shelf = s.shelf ∧
    (State.refuse s a st).mem = s.mem ∧ (State.refuse s a st).cons = s.cons ∧
    (State.refuse s a st).past = s.past ∧ (State.refuse s a st).tal = s.tal ∧
    (State.refuse s a st).partners = s.partners ∧ (State.refuse s a st).bays = s.bays ∧
    (State.refuse s a st).day = s.day ∧ (State.refuse s a st).sessions = s.sessions ∧
    (State.refuse s a st).dport = s.dport ∧ (State.refuse s a st).events = s.events ∧
    (State.refuse s a st).buses = s.buses ∧ (State.refuse s a st).health = s.health := by
  unfold State.refuse; simp

@[simp] theorem State.emitBus_keeps (s : State) (w : Wire) :
    (State.emitBus s w).pending = s.pending ∧ (State.emitBus s w).size = s.size ∧
    (State.emitBus s w).now = s.now ∧ (State.emitBus s w).runStart = s.runStart ∧
    (State.emitBus s w).free = s.free ∧ (State.emitBus s w).nextId = s.nextId ∧
    (State.emitBus s w).objs = s.objs ∧ (State.emitBus s w).keys = s.keys ∧
    (State.emitBus s w).boot = s.boot ∧ (State.emitBus s w).tod = s.tod ∧
    (State.emitBus s w).ports = s.ports ∧ (State.emitBus s w).seqs = s.seqs ∧
    (State.emitBus s w).ops = s.ops ∧ (State.emitBus s w).waits = s.waits ∧
    (State.emitBus s w).frank = s.frank ∧ (State.emitBus s w).table = s.table ∧
    (State.emitBus s w).shelf = s.shelf ∧ (State.emitBus s w).mem = s.mem ∧
    (State.emitBus s w).cons = s.cons ∧ (State.emitBus s w).past = s.past ∧
    (State.emitBus s w).tal = s.tal ∧ (State.emitBus s w).partners = s.partners ∧
    (State.emitBus s w).bays = s.bays ∧ (State.emitBus s w).day = s.day ∧
    (State.emitBus s w).sessions = s.sessions ∧ (State.emitBus s w).dport = s.dport ∧
    (State.emitBus s w).events = s.events ∧ (State.emitBus s w).buses = s.buses ∧
    (State.emitBus s w).test = s.test ∧ (State.emitBus s w).health = s.health := by
  unfold State.emitBus; split <;> simp

@[simp] theorem State.sdoResume_keeps (s : State) (ch : Nat) (x : Sdo) (value : List Byte) :
    (State.sdoResume s ch x value).pending = s.pending ∧ (State.sdoResume s ch x value).size = s.size ∧ (State.sdoResume s ch x value).now = s.now ∧
    (State.sdoResume s ch x value).runStart = s.runStart ∧ (State.sdoResume s ch x value).free = s.free ∧
    (State.sdoResume s ch x value).nextId = s.nextId ∧ (State.sdoResume s ch x value).objs = s.objs ∧
    (State.sdoResume s ch x value).keys = s.keys ∧ (State.sdoResume s ch x value).boot = s.boot ∧
    (State.sdoResume s ch x value).tod = s.tod ∧
    (State.sdoResume s ch x value).ports = s.ports ∧ (State.sdoResume s ch x value).seqs = s.seqs ∧
    (State.sdoResume s ch x value).ops = s.ops ∧ (State.sdoResume s ch x value).waits = s.waits ∧
    (State.sdoResume s ch x value).frank = s.frank ∧ (State.sdoResume s ch x value).table = s.table ∧
    (State.sdoResume s ch x value).shelf = s.shelf ∧ (State.sdoResume s ch x value).mem = s.mem ∧
    (State.sdoResume s ch x value).cons = s.cons ∧ (State.sdoResume s ch x value).past = s.past ∧
    (State.sdoResume s ch x value).tal = s.tal ∧ (State.sdoResume s ch x value).partners = s.partners ∧
    (State.sdoResume s ch x value).bays = s.bays ∧ (State.sdoResume s ch x value).day = s.day ∧
    (State.sdoResume s ch x value).sessions = s.sessions ∧ (State.sdoResume s ch x value).dport = s.dport ∧
    (State.sdoResume s ch x value).events = s.events ∧ (State.sdoResume s ch x value).test = s.test ∧
    (State.sdoResume s ch x value).health = s.health := by
  unfold State.sdoResume; simp

@[simp] theorem State.catAnswer_keeps (s : State) (k : Sess) (a : Option Arrival) (abort : Nat) (value : List Byte) :
    (State.catAnswer s k a abort value).pending = s.pending ∧ (State.catAnswer s k a abort value).size = s.size ∧ (State.catAnswer s k a abort value).now = s.now ∧
    (State.catAnswer s k a abort value).runStart = s.runStart ∧ (State.catAnswer s k a abort value).free = s.free ∧
    (State.catAnswer s k a abort value).nextId = s.nextId ∧ (State.catAnswer s k a abort value).keys = s.keys ∧
    (State.catAnswer s k a abort value).boot = s.boot ∧ (State.catAnswer s k a abort value).tod = s.tod ∧ (State.catAnswer s k a abort value).ops = s.ops ∧
    (State.catAnswer s k a abort value).waits = s.waits ∧ (State.catAnswer s k a abort value).frank = s.frank ∧
    (State.catAnswer s k a abort value).table = s.table ∧ (State.catAnswer s k a abort value).shelf = s.shelf ∧
    (State.catAnswer s k a abort value).mem = s.mem ∧ (State.catAnswer s k a abort value).cons = s.cons ∧
    (State.catAnswer s k a abort value).past = s.past ∧ (State.catAnswer s k a abort value).tal = s.tal ∧
    (State.catAnswer s k a abort value).partners = s.partners ∧ (State.catAnswer s k a abort value).bays = s.bays ∧
    (State.catAnswer s k a abort value).day = s.day ∧ (State.catAnswer s k a abort value).sessions = s.sessions ∧
    (State.catAnswer s k a abort value).dport = s.dport ∧ (State.catAnswer s k a abort value).events = s.events ∧
    (State.catAnswer s k a abort value).health = s.health := by
  unfold State.catAnswer; (repeat' split) <;> simp

@[simp] theorem State.wakeReaders_keeps (s : State) :
    (State.wakeReaders s).pending = s.pending ∧ (State.wakeReaders s).size = s.size ∧ (State.wakeReaders s).now = s.now ∧
    (State.wakeReaders s).runStart = s.runStart ∧ (State.wakeReaders s).free = s.free ∧
    (State.wakeReaders s).nextId = s.nextId ∧ (State.wakeReaders s).keys = s.keys ∧
    (State.wakeReaders s).boot = s.boot ∧ (State.wakeReaders s).tod = s.tod ∧ (State.wakeReaders s).ops = s.ops ∧
    (State.wakeReaders s).waits = s.waits ∧ (State.wakeReaders s).frank = s.frank ∧
    (State.wakeReaders s).table = s.table ∧ (State.wakeReaders s).shelf = s.shelf ∧
    (State.wakeReaders s).mem = s.mem ∧ (State.wakeReaders s).cons = s.cons ∧
    (State.wakeReaders s).past = s.past ∧ (State.wakeReaders s).tal = s.tal ∧
    (State.wakeReaders s).partners = s.partners ∧ (State.wakeReaders s).bays = s.bays ∧
    (State.wakeReaders s).day = s.day ∧ (State.wakeReaders s).dport = s.dport ∧
    (State.wakeReaders s).events = s.events ∧ (State.wakeReaders s).health = s.health := by
  unfold State.wakeReaders
  refine foldl_rel (fun (a b : State) => b.pending = a.pending ∧ b.size = a.size ∧ b.now = a.now ∧ b.runStart = a.runStart ∧ b.free = a.free ∧ b.nextId = a.nextId ∧ b.keys = a.keys ∧ b.boot = a.boot ∧ b.tod = a.tod ∧ b.ops = a.ops ∧ b.waits = a.waits ∧ b.frank = a.frank ∧ b.table = a.table ∧ b.shelf = a.shelf ∧ b.mem = a.mem ∧ b.cons = a.cons ∧ b.past = a.past ∧ b.tal = a.tal ∧ b.partners = a.partners ∧ b.bays = a.bays ∧ b.day = a.day ∧ b.dport = a.dport ∧ b.events = a.events ∧ b.health = a.health)
    (fun a => ⟨rfl, rfl, rfl, rfl, rfl, rfl, rfl, rfl, rfl, rfl, rfl, rfl, rfl, rfl, rfl, rfl, rfl, rfl, rfl, rfl, rfl, rfl, rfl, rfl⟩) (fun a b c h k => by simp_all) _ (fun t x => ?_) _ _
  split
  · simp
  · split <;> simp

@[simp] theorem State.event_keeps (s : State) (code bay : Nat) (aux : Nat) (arg : Nat) :
    (State.event s code bay aux arg).pending = s.pending ∧ (State.event s code bay aux arg).size = s.size ∧ (State.event s code bay aux arg).now = s.now ∧
    (State.event s code bay aux arg).runStart = s.runStart ∧ (State.event s code bay aux arg).free = s.free ∧
    (State.event s code bay aux arg).nextId = s.nextId ∧ (State.event s code bay aux arg).keys = s.keys ∧
    (State.event s code bay aux arg).boot = s.boot ∧ (State.event s code bay aux arg).tod = s.tod ∧ (State.event s code bay aux arg).ops = s.ops ∧
    (State.event s code bay aux arg).waits = s.waits ∧ (State.event s code bay aux arg).frank = s.frank ∧
    (State.event s code bay aux arg).table = s.table ∧ (State.event s code bay aux arg).shelf = s.shelf ∧
    (State.event s code bay aux arg).mem = s.mem ∧ (State.event s code bay aux arg).cons = s.cons ∧
    (State.event s code bay aux arg).past = s.past ∧ (State.event s code bay aux arg).tal = s.tal ∧
    (State.event s code bay aux arg).partners = s.partners ∧ (State.event s code bay aux arg).bays = s.bays ∧
    (State.event s code bay aux arg).day = s.day ∧ (State.event s code bay aux arg).dport = s.dport ∧
    (State.event s code bay aux arg).health = s.health := by
  unfold State.event; simp

@[simp] theorem State.hardLimit_keeps (s : State) (n : Nat) :
    (State.hardLimit s n).pending = s.pending ∧ (State.hardLimit s n).size = s.size ∧ (State.hardLimit s n).now = s.now ∧
    (State.hardLimit s n).runStart = s.runStart ∧ (State.hardLimit s n).free = s.free ∧
    (State.hardLimit s n).nextId = s.nextId ∧ (State.hardLimit s n).keys = s.keys ∧
    (State.hardLimit s n).boot = s.boot ∧ (State.hardLimit s n).tod = s.tod ∧ (State.hardLimit s n).ops = s.ops ∧
    (State.hardLimit s n).waits = s.waits ∧ (State.hardLimit s n).frank = s.frank ∧
    (State.hardLimit s n).table = s.table ∧ (State.hardLimit s n).shelf = s.shelf ∧
    (State.hardLimit s n).mem = s.mem ∧ (State.hardLimit s n).cons = s.cons ∧
    (State.hardLimit s n).past = s.past ∧ (State.hardLimit s n).tal = s.tal ∧
    (State.hardLimit s n).partners = s.partners ∧ (State.hardLimit s n).bays = s.bays ∧
    (State.hardLimit s n).day = s.day ∧ (State.hardLimit s n).dport = s.dport ∧
    (State.hardLimit s n).health = s.health := by
  unfold State.hardLimit; simp

@[simp] theorem State.markTiming_keeps (s : State) (cause : Nat) :
    (State.markTiming s cause).pending = s.pending ∧ (State.markTiming s cause).size = s.size ∧ (State.markTiming s cause).now = s.now ∧
    (State.markTiming s cause).runStart = s.runStart ∧ (State.markTiming s cause).free = s.free ∧
    (State.markTiming s cause).nextId = s.nextId ∧ (State.markTiming s cause).wire = s.wire ∧
    (State.markTiming s cause).keys = s.keys ∧ (State.markTiming s cause).boot = s.boot ∧
    (State.markTiming s cause).tod = s.tod ∧ (State.markTiming s cause).twins = s.twins ∧
    (State.markTiming s cause).ports = s.ports ∧ (State.markTiming s cause).seqs = s.seqs ∧
    (State.markTiming s cause).ops = s.ops ∧ (State.markTiming s cause).waits = s.waits ∧
    (State.markTiming s cause).frank = s.frank ∧ (State.markTiming s cause).table = s.table ∧
    (State.markTiming s cause).shelf = s.shelf ∧ (State.markTiming s cause).mem = s.mem ∧
    (State.markTiming s cause).cons = s.cons ∧ (State.markTiming s cause).past = s.past ∧
    (State.markTiming s cause).tal = s.tal ∧ (State.markTiming s cause).partners = s.partners ∧
    (State.markTiming s cause).bays = s.bays ∧ (State.markTiming s cause).sessions = s.sessions ∧
    (State.markTiming s cause).dport = s.dport ∧ (State.markTiming s cause).events = s.events ∧
    (State.markTiming s cause).buses = s.buses ∧ (State.markTiming s cause).test = s.test ∧
    (State.markTiming s cause).health = s.health := by
  unfold State.markTiming; simp

@[simp] theorem State.nextSerial_keeps (s : State) :
    (State.nextSerial s).2.pending = s.pending ∧ (State.nextSerial s).2.size = s.size ∧ (State.nextSerial s).2.now = s.now ∧
    (State.nextSerial s).2.runStart = s.runStart ∧ (State.nextSerial s).2.free = s.free ∧
    (State.nextSerial s).2.nextId = s.nextId ∧ (State.nextSerial s).2.wire = s.wire ∧
    (State.nextSerial s).2.keys = s.keys ∧ (State.nextSerial s).2.boot = s.boot ∧
    (State.nextSerial s).2.tod = s.tod ∧ (State.nextSerial s).2.twins = s.twins ∧
    (State.nextSerial s).2.ports = s.ports ∧ (State.nextSerial s).2.seqs = s.seqs ∧
    (State.nextSerial s).2.ops = s.ops ∧ (State.nextSerial s).2.waits = s.waits ∧
    (State.nextSerial s).2.frank = s.frank ∧ (State.nextSerial s).2.table = s.table ∧
    (State.nextSerial s).2.shelf = s.shelf ∧ (State.nextSerial s).2.mem = s.mem ∧
    (State.nextSerial s).2.cons = s.cons ∧ (State.nextSerial s).2.past = s.past ∧
    (State.nextSerial s).2.tal = s.tal ∧ (State.nextSerial s).2.partners = s.partners ∧
    (State.nextSerial s).2.bays = s.bays ∧ (State.nextSerial s).2.day = s.day ∧
    (State.nextSerial s).2.sessions = s.sessions ∧ (State.nextSerial s).2.dport = s.dport ∧
    (State.nextSerial s).2.events = s.events ∧ (State.nextSerial s).2.buses = s.buses ∧
    (State.nextSerial s).2.test = s.test ∧ (State.nextSerial s).2.health = s.health := by
  unfold State.nextSerial; simp

@[simp] theorem State.lostData_keeps (s : State) (off : Nat) :
    (State.lostData s off).pending = s.pending ∧ (State.lostData s off).size = s.size ∧ (State.lostData s off).now = s.now ∧
    (State.lostData s off).runStart = s.runStart ∧ (State.lostData s off).free = s.free ∧
    (State.lostData s off).nextId = s.nextId ∧ (State.lostData s off).wire = s.wire ∧
    (State.lostData s off).keys = s.keys ∧ (State.lostData s off).boot = s.boot ∧
    (State.lostData s off).tod = s.tod ∧ (State.lostData s off).twins = s.twins ∧
    (State.lostData s off).ports = s.ports ∧ (State.lostData s off).seqs = s.seqs ∧
    (State.lostData s off).ops = s.ops ∧ (State.lostData s off).waits = s.waits ∧
    (State.lostData s off).frank = s.frank ∧ (State.lostData s off).table = s.table ∧
    (State.lostData s off).shelf = s.shelf ∧ (State.lostData s off).mem = s.mem ∧
    (State.lostData s off).cons = s.cons ∧ (State.lostData s off).past = s.past ∧
    (State.lostData s off).tal = s.tal ∧ (State.lostData s off).partners = s.partners ∧
    (State.lostData s off).bays = s.bays ∧ (State.lostData s off).day = s.day ∧
    (State.lostData s off).sessions = s.sessions ∧ (State.lostData s off).dport = s.dport ∧
    (State.lostData s off).events = s.events ∧ (State.lostData s off).buses = s.buses ∧
    (State.lostData s off).test = s.test ∧ (State.lostData s off).health = s.health := by
  unfold State.lostData; simp

@[simp] theorem State.setWatermark_keeps (s : State) (s0 w : Nat) :
    (State.setWatermark s s0 w).pending = s.pending ∧ (State.setWatermark s s0 w).size = s.size ∧ (State.setWatermark s s0 w).now = s.now ∧
    (State.setWatermark s s0 w).runStart = s.runStart ∧ (State.setWatermark s s0 w).free = s.free ∧
    (State.setWatermark s s0 w).nextId = s.nextId ∧ (State.setWatermark s s0 w).wire = s.wire ∧
    (State.setWatermark s s0 w).objs = s.objs ∧ (State.setWatermark s s0 w).keys = s.keys ∧
    (State.setWatermark s s0 w).boot = s.boot ∧ (State.setWatermark s s0 w).tod = s.tod ∧
    (State.setWatermark s s0 w).twins = s.twins ∧ (State.setWatermark s s0 w).ports = s.ports ∧
    (State.setWatermark s s0 w).seqs = s.seqs ∧ (State.setWatermark s s0 w).ops = s.ops ∧
    (State.setWatermark s s0 w).waits = s.waits ∧ (State.setWatermark s s0 w).frank = s.frank ∧
    (State.setWatermark s s0 w).table = s.table ∧ (State.setWatermark s s0 w).mem = s.mem ∧
    (State.setWatermark s s0 w).cons = s.cons ∧ (State.setWatermark s s0 w).past = s.past ∧
    (State.setWatermark s s0 w).tal = s.tal ∧ (State.setWatermark s s0 w).partners = s.partners ∧
    (State.setWatermark s s0 w).bays = s.bays ∧ (State.setWatermark s s0 w).day = s.day ∧
    (State.setWatermark s s0 w).sessions = s.sessions ∧ (State.setWatermark s s0 w).dport = s.dport ∧
    (State.setWatermark s s0 w).events = s.events ∧ (State.setWatermark s s0 w).buses = s.buses ∧
    (State.setWatermark s s0 w).test = s.test ∧ (State.setWatermark s s0 w).health = s.health := by
  unfold State.setWatermark; simp

@[simp] theorem State.fenceGroups_keeps (s : State) (b : Nat) :
    (State.fenceGroups s b).pending = s.pending ∧ (State.fenceGroups s b).size = s.size ∧ (State.fenceGroups s b).now = s.now ∧
    (State.fenceGroups s b).runStart = s.runStart ∧ (State.fenceGroups s b).free = s.free ∧
    (State.fenceGroups s b).nextId = s.nextId ∧ (State.fenceGroups s b).wire = s.wire ∧
    (State.fenceGroups s b).keys = s.keys ∧ (State.fenceGroups s b).boot = s.boot ∧
    (State.fenceGroups s b).tod = s.tod ∧ (State.fenceGroups s b).twins = s.twins ∧
    (State.fenceGroups s b).ports = s.ports ∧ (State.fenceGroups s b).seqs = s.seqs ∧
    (State.fenceGroups s b).ops = s.ops ∧ (State.fenceGroups s b).waits = s.waits ∧
    (State.fenceGroups s b).frank = s.frank ∧ (State.fenceGroups s b).table = s.table ∧
    (State.fenceGroups s b).mem = s.mem ∧ (State.fenceGroups s b).cons = s.cons ∧
    (State.fenceGroups s b).past = s.past ∧ (State.fenceGroups s b).tal = s.tal ∧
    (State.fenceGroups s b).partners = s.partners ∧ (State.fenceGroups s b).bays = s.bays ∧
    (State.fenceGroups s b).day = s.day ∧ (State.fenceGroups s b).sessions = s.sessions ∧
    (State.fenceGroups s b).dport = s.dport ∧ (State.fenceGroups s b).events = s.events ∧
    (State.fenceGroups s b).buses = s.buses ∧ (State.fenceGroups s b).test = s.test ∧
    (State.fenceGroups s b).health = s.health := by
  unfold State.fenceGroups; simp

@[simp] theorem State.loseStream_keeps (s : State) (b : Nat) :
    (State.loseStream s b).pending = s.pending ∧ (State.loseStream s b).size = s.size ∧
    (State.loseStream s b).now = s.now ∧ (State.loseStream s b).runStart = s.runStart ∧
    (State.loseStream s b).free = s.free ∧ (State.loseStream s b).nextId = s.nextId ∧
    (State.loseStream s b).wire = s.wire ∧ (State.loseStream s b).keys = s.keys ∧
    (State.loseStream s b).boot = s.boot ∧ (State.loseStream s b).tod = s.tod ∧
    (State.loseStream s b).twins = s.twins ∧ (State.loseStream s b).ports = s.ports ∧
    (State.loseStream s b).seqs = s.seqs ∧ (State.loseStream s b).ops = s.ops ∧
    (State.loseStream s b).waits = s.waits ∧ (State.loseStream s b).frank = s.frank ∧
    (State.loseStream s b).table = s.table ∧ (State.loseStream s b).shelf = s.shelf ∧
    (State.loseStream s b).mem = s.mem ∧ (State.loseStream s b).cons = s.cons ∧
    (State.loseStream s b).past = s.past ∧ (State.loseStream s b).tal = s.tal ∧
    (State.loseStream s b).partners = s.partners ∧ (State.loseStream s b).bays = s.bays ∧
    (State.loseStream s b).sessions = s.sessions ∧ (State.loseStream s b).dport = s.dport ∧
    (State.loseStream s b).events = s.events ∧ (State.loseStream s b).buses = s.buses ∧
    (State.loseStream s b).test = s.test ∧ (State.loseStream s b).health = s.health := by
  unfold State.loseStream; simp

@[simp] theorem State.loseContents_keeps (s : State) (b : Nat) :
    (State.loseContents s b).pending = s.pending ∧ (State.loseContents s b).size = s.size ∧ (State.loseContents s b).now = s.now ∧
    (State.loseContents s b).runStart = s.runStart ∧ (State.loseContents s b).free = s.free ∧
    (State.loseContents s b).nextId = s.nextId ∧ (State.loseContents s b).wire = s.wire ∧ (State.loseContents s b).keys = s.keys ∧
    (State.loseContents s b).boot = s.boot ∧ (State.loseContents s b).tod = s.tod ∧
    (State.loseContents s b).twins = s.twins ∧ (State.loseContents s b).ports = s.ports ∧
    (State.loseContents s b).seqs = s.seqs ∧ (State.loseContents s b).ops = s.ops ∧
    (State.loseContents s b).waits = s.waits ∧ (State.loseContents s b).frank = s.frank ∧
    (State.loseContents s b).table = s.table ∧ (State.loseContents s b).cons = s.cons ∧
    (State.loseContents s b).past = s.past ∧ (State.loseContents s b).tal = s.tal ∧
    (State.loseContents s b).partners = s.partners ∧ (State.loseContents s b).bays = s.bays ∧ (State.loseContents s b).sessions = s.sessions ∧
    (State.loseContents s b).dport = s.dport ∧ (State.loseContents s b).events = s.events ∧
    (State.loseContents s b).buses = s.buses ∧ (State.loseContents s b).test = s.test ∧
    (State.loseContents s b).health = s.health := by
  unfold State.loseContents; simp

@[simp] theorem State.clearValid_keeps (s : State) (first count : Nat) :
    (State.clearValid s first count).pending = s.pending ∧ (State.clearValid s first count).size = s.size ∧ (State.clearValid s first count).now = s.now ∧
    (State.clearValid s first count).runStart = s.runStart ∧ (State.clearValid s first count).free = s.free ∧
    (State.clearValid s first count).nextId = s.nextId ∧ (State.clearValid s first count).wire = s.wire ∧
    (State.clearValid s first count).objs = s.objs ∧ (State.clearValid s first count).keys = s.keys ∧
    (State.clearValid s first count).boot = s.boot ∧ (State.clearValid s first count).tod = s.tod ∧
    (State.clearValid s first count).twins = s.twins ∧ (State.clearValid s first count).ports = s.ports ∧
    (State.clearValid s first count).seqs = s.seqs ∧ (State.clearValid s first count).ops = s.ops ∧
    (State.clearValid s first count).waits = s.waits ∧ (State.clearValid s first count).frank = s.frank ∧
    (State.clearValid s first count).table = s.table ∧ (State.clearValid s first count).mem = s.mem ∧
    (State.clearValid s first count).cons = s.cons ∧ (State.clearValid s first count).past = s.past ∧
    (State.clearValid s first count).tal = s.tal ∧ (State.clearValid s first count).partners = s.partners ∧
    (State.clearValid s first count).bays = s.bays ∧ (State.clearValid s first count).day = s.day ∧
    (State.clearValid s first count).sessions = s.sessions ∧ (State.clearValid s first count).dport = s.dport ∧
    (State.clearValid s first count).events = s.events ∧ (State.clearValid s first count).buses = s.buses ∧
    (State.clearValid s first count).health = s.health := by
  unfold State.clearValid; simp

@[simp] theorem State.setLanes_keeps (s : State) (b : Nat) (x : PcLanes) :
    (State.setLanes s b x).pending = s.pending ∧ (State.setLanes s b x).size = s.size ∧ (State.setLanes s b x).now = s.now ∧
    (State.setLanes s b x).runStart = s.runStart ∧ (State.setLanes s b x).free = s.free ∧
    (State.setLanes s b x).nextId = s.nextId ∧ (State.setLanes s b x).wire = s.wire ∧
    (State.setLanes s b x).objs = s.objs ∧ (State.setLanes s b x).keys = s.keys ∧
    (State.setLanes s b x).boot = s.boot ∧ (State.setLanes s b x).tod = s.tod ∧
    (State.setLanes s b x).twins = s.twins ∧ (State.setLanes s b x).ports = s.ports ∧
    (State.setLanes s b x).seqs = s.seqs ∧ (State.setLanes s b x).ops = s.ops ∧
    (State.setLanes s b x).waits = s.waits ∧ (State.setLanes s b x).frank = s.frank ∧
    (State.setLanes s b x).table = s.table ∧ (State.setLanes s b x).shelf = s.shelf ∧
    (State.setLanes s b x).mem = s.mem ∧ (State.setLanes s b x).cons = s.cons ∧
    (State.setLanes s b x).past = s.past ∧ (State.setLanes s b x).tal = s.tal ∧
    (State.setLanes s b x).partners = s.partners ∧ (State.setLanes s b x).day = s.day ∧
    (State.setLanes s b x).sessions = s.sessions ∧ (State.setLanes s b x).dport = s.dport ∧
    (State.setLanes s b x).events = s.events ∧ (State.setLanes s b x).buses = s.buses ∧
    (State.setLanes s b x).test = s.test ∧ (State.setLanes s b x).health = s.health := by
  unfold State.setLanes; simp

@[simp] theorem State.bin_keeps (s : State) (b pc w : Nat) :
    (State.bin s b pc w).pending = s.pending ∧ (State.bin s b pc w).size = s.size ∧ (State.bin s b pc w).now = s.now ∧
    (State.bin s b pc w).runStart = s.runStart ∧ (State.bin s b pc w).free = s.free ∧
    (State.bin s b pc w).nextId = s.nextId ∧ (State.bin s b pc w).wire = s.wire ∧
    (State.bin s b pc w).objs = s.objs ∧ (State.bin s b pc w).keys = s.keys ∧
    (State.bin s b pc w).boot = s.boot ∧ (State.bin s b pc w).tod = s.tod ∧
    (State.bin s b pc w).twins = s.twins ∧ (State.bin s b pc w).ports = s.ports ∧
    (State.bin s b pc w).seqs = s.seqs ∧ (State.bin s b pc w).ops = s.ops ∧
    (State.bin s b pc w).waits = s.waits ∧ (State.bin s b pc w).frank = s.frank ∧
    (State.bin s b pc w).table = s.table ∧ (State.bin s b pc w).shelf = s.shelf ∧
    (State.bin s b pc w).mem = s.mem ∧ (State.bin s b pc w).cons = s.cons ∧
    (State.bin s b pc w).past = s.past ∧ (State.bin s b pc w).tal = s.tal ∧
    (State.bin s b pc w).partners = s.partners ∧ (State.bin s b pc w).day = s.day ∧
    (State.bin s b pc w).sessions = s.sessions ∧ (State.bin s b pc w).dport = s.dport ∧
    (State.bin s b pc w).events = s.events ∧ (State.bin s b pc w).buses = s.buses ∧
    (State.bin s b pc w).test = s.test ∧ (State.bin s b pc w).health = s.health := by
  unfold State.bin; simp

@[simp] theorem State.propose_keeps (s : State) (b pc reason : Nat) :
    (State.propose s b pc reason).pending = s.pending ∧ (State.propose s b pc reason).size = s.size ∧ (State.propose s b pc reason).now = s.now ∧
    (State.propose s b pc reason).runStart = s.runStart ∧ (State.propose s b pc reason).free = s.free ∧
    (State.propose s b pc reason).nextId = s.nextId ∧ (State.propose s b pc reason).keys = s.keys ∧
    (State.propose s b pc reason).boot = s.boot ∧ (State.propose s b pc reason).tod = s.tod ∧ (State.propose s b pc reason).ops = s.ops ∧
    (State.propose s b pc reason).waits = s.waits ∧ (State.propose s b pc reason).frank = s.frank ∧
    (State.propose s b pc reason).table = s.table ∧ (State.propose s b pc reason).shelf = s.shelf ∧
    (State.propose s b pc reason).mem = s.mem ∧ (State.propose s b pc reason).cons = s.cons ∧
    (State.propose s b pc reason).past = s.past ∧ (State.propose s b pc reason).tal = s.tal ∧
    (State.propose s b pc reason).partners = s.partners ∧
    (State.propose s b pc reason).day = s.day ∧ (State.propose s b pc reason).dport = s.dport ∧
    (State.propose s b pc reason).health = s.health := by
  unfold State.propose; simp

@[simp] theorem State.laneFails_keeps (s : State) (b pc lane : Nat) :
    (State.laneFails s b pc lane).pending = s.pending ∧ (State.laneFails s b pc lane).size = s.size ∧ (State.laneFails s b pc lane).now = s.now ∧
    (State.laneFails s b pc lane).runStart = s.runStart ∧ (State.laneFails s b pc lane).free = s.free ∧
    (State.laneFails s b pc lane).nextId = s.nextId ∧ (State.laneFails s b pc lane).keys = s.keys ∧
    (State.laneFails s b pc lane).boot = s.boot ∧ (State.laneFails s b pc lane).tod = s.tod ∧ (State.laneFails s b pc lane).ops = s.ops ∧
    (State.laneFails s b pc lane).waits = s.waits ∧ (State.laneFails s b pc lane).frank = s.frank ∧
    (State.laneFails s b pc lane).table = s.table ∧ (State.laneFails s b pc lane).shelf = s.shelf ∧
    (State.laneFails s b pc lane).mem = s.mem ∧ (State.laneFails s b pc lane).cons = s.cons ∧
    (State.laneFails s b pc lane).past = s.past ∧ (State.laneFails s b pc lane).tal = s.tal ∧
    (State.laneFails s b pc lane).partners = s.partners ∧ (State.laneFails s b pc lane).day = s.day ∧
    (State.laneFails s b pc lane).dport = s.dport ∧ (State.laneFails s b pc lane).health = s.health := by
  unfold State.laneFails; simp

@[simp] theorem State.uncorrEvent_keeps (s : State) (b pc : Nat) :
    (State.uncorrEvent s b pc).pending = s.pending ∧ (State.uncorrEvent s b pc).size = s.size ∧ (State.uncorrEvent s b pc).now = s.now ∧
    (State.uncorrEvent s b pc).runStart = s.runStart ∧ (State.uncorrEvent s b pc).free = s.free ∧
    (State.uncorrEvent s b pc).nextId = s.nextId ∧ (State.uncorrEvent s b pc).keys = s.keys ∧
    (State.uncorrEvent s b pc).boot = s.boot ∧ (State.uncorrEvent s b pc).tod = s.tod ∧ (State.uncorrEvent s b pc).ops = s.ops ∧
    (State.uncorrEvent s b pc).waits = s.waits ∧ (State.uncorrEvent s b pc).frank = s.frank ∧
    (State.uncorrEvent s b pc).table = s.table ∧ (State.uncorrEvent s b pc).shelf = s.shelf ∧
    (State.uncorrEvent s b pc).mem = s.mem ∧ (State.uncorrEvent s b pc).cons = s.cons ∧
    (State.uncorrEvent s b pc).past = s.past ∧ (State.uncorrEvent s b pc).tal = s.tal ∧
    (State.uncorrEvent s b pc).partners = s.partners ∧ (State.uncorrEvent s b pc).day = s.day ∧
    (State.uncorrEvent s b pc).dport = s.dport ∧ (State.uncorrEvent s b pc).health = s.health := by
  unfold State.uncorrEvent; simp

@[simp] theorem State.hardFault_keeps (s : State) (b pc ga sym : Nat) (fresh : Bool) :
    (State.hardFault s b pc ga sym fresh).pending = s.pending ∧ (State.hardFault s b pc ga sym fresh).size = s.size ∧ (State.hardFault s b pc ga sym fresh).now = s.now ∧
    (State.hardFault s b pc ga sym fresh).runStart = s.runStart ∧ (State.hardFault s b pc ga sym fresh).free = s.free ∧
    (State.hardFault s b pc ga sym fresh).nextId = s.nextId ∧ (State.hardFault s b pc ga sym fresh).wire = s.wire ∧
    (State.hardFault s b pc ga sym fresh).keys = s.keys ∧ (State.hardFault s b pc ga sym fresh).boot = s.boot ∧
    (State.hardFault s b pc ga sym fresh).tod = s.tod ∧ (State.hardFault s b pc ga sym fresh).twins = s.twins ∧
    (State.hardFault s b pc ga sym fresh).ports = s.ports ∧ (State.hardFault s b pc ga sym fresh).seqs = s.seqs ∧
    (State.hardFault s b pc ga sym fresh).ops = s.ops ∧ (State.hardFault s b pc ga sym fresh).waits = s.waits ∧
    (State.hardFault s b pc ga sym fresh).frank = s.frank ∧ (State.hardFault s b pc ga sym fresh).table = s.table ∧
    (State.hardFault s b pc ga sym fresh).shelf = s.shelf ∧ (State.hardFault s b pc ga sym fresh).cons = s.cons ∧
    (State.hardFault s b pc ga sym fresh).past = s.past ∧ (State.hardFault s b pc ga sym fresh).tal = s.tal ∧
    (State.hardFault s b pc ga sym fresh).partners = s.partners ∧ (State.hardFault s b pc ga sym fresh).bays = s.bays ∧
    (State.hardFault s b pc ga sym fresh).day = s.day ∧ (State.hardFault s b pc ga sym fresh).sessions = s.sessions ∧
    (State.hardFault s b pc ga sym fresh).dport = s.dport ∧ (State.hardFault s b pc ga sym fresh).events = s.events ∧
    (State.hardFault s b pc ga sym fresh).buses = s.buses ∧ (State.hardFault s b pc ga sym fresh).health = s.health := by
  unfold State.hardFault; simp

@[simp] theorem State.noteDecode_keeps (s : State) (b pc ga : Nat) (r : RsResult) (inner : Bool) :
    (State.noteDecode s b pc ga r inner).pending = s.pending ∧ (State.noteDecode s b pc ga r inner).size = s.size ∧ (State.noteDecode s b pc ga r inner).now = s.now ∧
    (State.noteDecode s b pc ga r inner).runStart = s.runStart ∧ (State.noteDecode s b pc ga r inner).free = s.free ∧
    (State.noteDecode s b pc ga r inner).nextId = s.nextId ∧ (State.noteDecode s b pc ga r inner).keys = s.keys ∧
    (State.noteDecode s b pc ga r inner).boot = s.boot ∧ (State.noteDecode s b pc ga r inner).tod = s.tod ∧ (State.noteDecode s b pc ga r inner).ops = s.ops ∧
    (State.noteDecode s b pc ga r inner).waits = s.waits ∧ (State.noteDecode s b pc ga r inner).frank = s.frank ∧
    (State.noteDecode s b pc ga r inner).table = s.table ∧ (State.noteDecode s b pc ga r inner).shelf = s.shelf ∧
    (State.noteDecode s b pc ga r inner).cons = s.cons ∧ (State.noteDecode s b pc ga r inner).past = s.past ∧
    (State.noteDecode s b pc ga r inner).tal = s.tal ∧ (State.noteDecode s b pc ga r inner).partners = s.partners ∧
    (State.noteDecode s b pc ga r inner).day = s.day ∧ (State.noteDecode s b pc ga r inner).dport = s.dport ∧
    (State.noteDecode s b pc ga r inner).health = s.health := by
  unfold State.noteDecode; simp

@[simp] theorem State.markGranule_keeps (s : State) (g : Nat) :
    (State.markGranule s g).pending = s.pending ∧ (State.markGranule s g).size = s.size ∧ (State.markGranule s g).now = s.now ∧
    (State.markGranule s g).runStart = s.runStart ∧ (State.markGranule s g).free = s.free ∧
    (State.markGranule s g).nextId = s.nextId ∧ (State.markGranule s g).keys = s.keys ∧
    (State.markGranule s g).boot = s.boot ∧ (State.markGranule s g).tod = s.tod ∧ (State.markGranule s g).ops = s.ops ∧
    (State.markGranule s g).waits = s.waits ∧ (State.markGranule s g).frank = s.frank ∧
    (State.markGranule s g).table = s.table ∧ (State.markGranule s g).shelf = s.shelf ∧
    (State.markGranule s g).cons = s.cons ∧ (State.markGranule s g).past = s.past ∧
    (State.markGranule s g).tal = s.tal ∧ (State.markGranule s g).partners = s.partners ∧
    (State.markGranule s g).day = s.day ∧ (State.markGranule s g).dport = s.dport ∧
    (State.markGranule s g).health = s.health := by
  unfold State.markGranule; simp

@[simp] theorem State.stackRead_keeps (s : State) (g : Nat) (err reread : SymErr) (inner : Bool) :
    (State.stackRead s g err reread inner).1.pending = s.pending ∧ (State.stackRead s g err reread inner).1.size = s.size ∧ (State.stackRead s g err reread inner).1.now = s.now ∧
    (State.stackRead s g err reread inner).1.runStart = s.runStart ∧ (State.stackRead s g err reread inner).1.free = s.free ∧
    (State.stackRead s g err reread inner).1.nextId = s.nextId ∧ (State.stackRead s g err reread inner).1.keys = s.keys ∧
    (State.stackRead s g err reread inner).1.boot = s.boot ∧ (State.stackRead s g err reread inner).1.tod = s.tod ∧ (State.stackRead s g err reread inner).1.ops = s.ops ∧
    (State.stackRead s g err reread inner).1.waits = s.waits ∧ (State.stackRead s g err reread inner).1.frank = s.frank ∧
    (State.stackRead s g err reread inner).1.table = s.table ∧ (State.stackRead s g err reread inner).1.shelf = s.shelf ∧
    (State.stackRead s g err reread inner).1.cons = s.cons ∧ (State.stackRead s g err reread inner).1.past = s.past ∧
    (State.stackRead s g err reread inner).1.tal = s.tal ∧ (State.stackRead s g err reread inner).1.partners = s.partners ∧
    (State.stackRead s g err reread inner).1.day = s.day ∧ (State.stackRead s g err reread inner).1.dport = s.dport ∧
    (State.stackRead s g err reread inner).1.health = s.health := by
  unfold State.stackRead; (repeat' split) <;> simp <;> (repeat' split) <;> simp

@[simp] theorem State.carrelDecode_keeps (s : State) (b pc : Nat) (data : List Byte) (err : SymErr) :
    (State.carrelDecode s b pc data err).1.pending = s.pending ∧ (State.carrelDecode s b pc data err).1.size = s.size ∧ (State.carrelDecode s b pc data err).1.now = s.now ∧
    (State.carrelDecode s b pc data err).1.runStart = s.runStart ∧ (State.carrelDecode s b pc data err).1.free = s.free ∧
    (State.carrelDecode s b pc data err).1.nextId = s.nextId ∧ (State.carrelDecode s b pc data err).1.wire = s.wire ∧
    (State.carrelDecode s b pc data err).1.objs = s.objs ∧ (State.carrelDecode s b pc data err).1.keys = s.keys ∧
    (State.carrelDecode s b pc data err).1.boot = s.boot ∧ (State.carrelDecode s b pc data err).1.tod = s.tod ∧
    (State.carrelDecode s b pc data err).1.twins = s.twins ∧ (State.carrelDecode s b pc data err).1.ports = s.ports ∧
    (State.carrelDecode s b pc data err).1.seqs = s.seqs ∧ (State.carrelDecode s b pc data err).1.ops = s.ops ∧
    (State.carrelDecode s b pc data err).1.waits = s.waits ∧ (State.carrelDecode s b pc data err).1.frank = s.frank ∧
    (State.carrelDecode s b pc data err).1.table = s.table ∧ (State.carrelDecode s b pc data err).1.shelf = s.shelf ∧
    (State.carrelDecode s b pc data err).1.mem = s.mem ∧ (State.carrelDecode s b pc data err).1.cons = s.cons ∧
    (State.carrelDecode s b pc data err).1.past = s.past ∧ (State.carrelDecode s b pc data err).1.tal = s.tal ∧
    (State.carrelDecode s b pc data err).1.partners = s.partners ∧ (State.carrelDecode s b pc data err).1.day = s.day ∧
    (State.carrelDecode s b pc data err).1.sessions = s.sessions ∧ (State.carrelDecode s b pc data err).1.dport = s.dport ∧
    (State.carrelDecode s b pc data err).1.events = s.events ∧ (State.carrelDecode s b pc data err).1.buses = s.buses ∧
    (State.carrelDecode s b pc data err).1.test = s.test ∧ (State.carrelDecode s b pc data err).1.health = s.health := by
  unfold State.carrelDecode; (repeat' split) <;> simp <;> (repeat' split) <;> simp

@[simp] theorem State.drainGuar_keeps (s : State) (b c bytes : Nat) :
    (State.drainGuar s b c bytes).pending = s.pending ∧ (State.drainGuar s b c bytes).size = s.size ∧ (State.drainGuar s b c bytes).now = s.now ∧
    (State.drainGuar s b c bytes).runStart = s.runStart ∧ (State.drainGuar s b c bytes).free = s.free ∧
    (State.drainGuar s b c bytes).nextId = s.nextId ∧ (State.drainGuar s b c bytes).wire = s.wire ∧
    (State.drainGuar s b c bytes).objs = s.objs ∧ (State.drainGuar s b c bytes).keys = s.keys ∧
    (State.drainGuar s b c bytes).boot = s.boot ∧ (State.drainGuar s b c bytes).tod = s.tod ∧
    (State.drainGuar s b c bytes).twins = s.twins ∧ (State.drainGuar s b c bytes).ports = s.ports ∧
    (State.drainGuar s b c bytes).seqs = s.seqs ∧ (State.drainGuar s b c bytes).ops = s.ops ∧
    (State.drainGuar s b c bytes).waits = s.waits ∧ (State.drainGuar s b c bytes).table = s.table ∧
    (State.drainGuar s b c bytes).shelf = s.shelf ∧ (State.drainGuar s b c bytes).mem = s.mem ∧
    (State.drainGuar s b c bytes).cons = s.cons ∧ (State.drainGuar s b c bytes).past = s.past ∧
    (State.drainGuar s b c bytes).tal = s.tal ∧ (State.drainGuar s b c bytes).partners = s.partners ∧
    (State.drainGuar s b c bytes).bays = s.bays ∧ (State.drainGuar s b c bytes).day = s.day ∧
    (State.drainGuar s b c bytes).sessions = s.sessions ∧ (State.drainGuar s b c bytes).dport = s.dport ∧
    (State.drainGuar s b c bytes).events = s.events ∧ (State.drainGuar s b c bytes).buses = s.buses ∧
    (State.drainGuar s b c bytes).test = s.test ∧ (State.drainGuar s b c bytes).health = s.health := by
  unfold State.drainGuar; simp

@[simp] theorem State.noteLatency_keeps (s : State) (b c ns : Nat) :
    (State.noteLatency s b c ns).pending = s.pending ∧ (State.noteLatency s b c ns).size = s.size ∧ (State.noteLatency s b c ns).now = s.now ∧
    (State.noteLatency s b c ns).runStart = s.runStart ∧ (State.noteLatency s b c ns).free = s.free ∧
    (State.noteLatency s b c ns).nextId = s.nextId ∧ (State.noteLatency s b c ns).wire = s.wire ∧
    (State.noteLatency s b c ns).objs = s.objs ∧ (State.noteLatency s b c ns).keys = s.keys ∧
    (State.noteLatency s b c ns).boot = s.boot ∧ (State.noteLatency s b c ns).tod = s.tod ∧
    (State.noteLatency s b c ns).twins = s.twins ∧ (State.noteLatency s b c ns).ports = s.ports ∧
    (State.noteLatency s b c ns).seqs = s.seqs ∧ (State.noteLatency s b c ns).ops = s.ops ∧
    (State.noteLatency s b c ns).waits = s.waits ∧ (State.noteLatency s b c ns).table = s.table ∧
    (State.noteLatency s b c ns).shelf = s.shelf ∧ (State.noteLatency s b c ns).mem = s.mem ∧
    (State.noteLatency s b c ns).cons = s.cons ∧ (State.noteLatency s b c ns).past = s.past ∧
    (State.noteLatency s b c ns).tal = s.tal ∧ (State.noteLatency s b c ns).partners = s.partners ∧
    (State.noteLatency s b c ns).bays = s.bays ∧ (State.noteLatency s b c ns).day = s.day ∧
    (State.noteLatency s b c ns).sessions = s.sessions ∧ (State.noteLatency s b c ns).dport = s.dport ∧
    (State.noteLatency s b c ns).events = s.events ∧ (State.noteLatency s b c ns).buses = s.buses ∧
    (State.noteLatency s b c ns).test = s.test ∧ (State.noteLatency s b c ns).health = s.health := by
  unfold State.noteLatency; simp

@[simp] theorem State.bayServes_keeps (s : State) (o : Op) (b bytes : Nat) (last : Bool) :
    (State.bayServes s o b bytes last).pending = s.pending ∧ (State.bayServes s o b bytes last).size = s.size ∧
    (State.bayServes s o b bytes last).now = s.now ∧ (State.bayServes s o b bytes last).runStart = s.runStart ∧
    (State.bayServes s o b bytes last).free = s.free ∧ (State.bayServes s o b bytes last).nextId = s.nextId ∧
    (State.bayServes s o b bytes last).wire = s.wire ∧ (State.bayServes s o b bytes last).objs = s.objs ∧
    (State.bayServes s o b bytes last).keys = s.keys ∧ (State.bayServes s o b bytes last).boot = s.boot ∧
    (State.bayServes s o b bytes last).tod = s.tod ∧ (State.bayServes s o b bytes last).twins = s.twins ∧
    (State.bayServes s o b bytes last).ports = s.ports ∧ (State.bayServes s o b bytes last).seqs = s.seqs ∧
    (State.bayServes s o b bytes last).ops = s.ops ∧ (State.bayServes s o b bytes last).waits = s.waits ∧
    (State.bayServes s o b bytes last).table = s.table ∧ (State.bayServes s o b bytes last).shelf = s.shelf ∧
    (State.bayServes s o b bytes last).mem = s.mem ∧ (State.bayServes s o b bytes last).cons = s.cons ∧
    (State.bayServes s o b bytes last).past = s.past ∧ (State.bayServes s o b bytes last).tal = s.tal ∧
    (State.bayServes s o b bytes last).partners = s.partners ∧ (State.bayServes s o b bytes last).bays = s.bays ∧
    (State.bayServes s o b bytes last).day = s.day ∧ (State.bayServes s o b bytes last).sessions = s.sessions ∧
    (State.bayServes s o b bytes last).dport = s.dport ∧ (State.bayServes s o b bytes last).events = s.events ∧
    (State.bayServes s o b bytes last).buses = s.buses ∧ (State.bayServes s o b bytes last).test = s.test ∧
    (State.bayServes s o b bytes last).health = s.health := by
  unfold State.bayServes; simp

@[simp] theorem State.served_keeps (s : State) (o : Op) (places : List Nat) :
    (State.served s o places).pending = s.pending ∧ (State.served s o places).size = s.size ∧ (State.served s o places).now = s.now ∧
    (State.served s o places).runStart = s.runStart ∧ (State.served s o places).free = s.free ∧
    (State.served s o places).nextId = s.nextId ∧ (State.served s o places).wire = s.wire ∧
    (State.served s o places).objs = s.objs ∧ (State.served s o places).keys = s.keys ∧
    (State.served s o places).boot = s.boot ∧ (State.served s o places).tod = s.tod ∧
    (State.served s o places).twins = s.twins ∧ (State.served s o places).ports = s.ports ∧
    (State.served s o places).seqs = s.seqs ∧ (State.served s o places).ops = s.ops ∧
    (State.served s o places).waits = s.waits ∧ (State.served s o places).table = s.table ∧
    (State.served s o places).shelf = s.shelf ∧ (State.served s o places).mem = s.mem ∧
    (State.served s o places).cons = s.cons ∧ (State.served s o places).past = s.past ∧
    (State.served s o places).tal = s.tal ∧ (State.served s o places).partners = s.partners ∧
    (State.served s o places).bays = s.bays ∧ (State.served s o places).day = s.day ∧
    (State.served s o places).sessions = s.sessions ∧ (State.served s o places).dport = s.dport ∧
    (State.served s o places).events = s.events ∧ (State.served s o places).buses = s.buses ∧
    (State.served s o places).test = s.test ∧ (State.served s o places).health = s.health := by
  unfold State.served; simp

@[simp] theorem State.countLines_keeps (s : State) (o : Op) (idx : List Nat) :
    (State.countLines s o idx).pending = s.pending ∧ (State.countLines s o idx).size = s.size ∧ (State.countLines s o idx).now = s.now ∧
    (State.countLines s o idx).runStart = s.runStart ∧ (State.countLines s o idx).free = s.free ∧
    (State.countLines s o idx).nextId = s.nextId ∧ (State.countLines s o idx).wire = s.wire ∧
    (State.countLines s o idx).objs = s.objs ∧ (State.countLines s o idx).keys = s.keys ∧
    (State.countLines s o idx).boot = s.boot ∧ (State.countLines s o idx).tod = s.tod ∧
    (State.countLines s o idx).twins = s.twins ∧ (State.countLines s o idx).ports = s.ports ∧
    (State.countLines s o idx).seqs = s.seqs ∧ (State.countLines s o idx).ops = s.ops ∧
    (State.countLines s o idx).waits = s.waits ∧ (State.countLines s o idx).frank = s.frank ∧
    (State.countLines s o idx).table = s.table ∧ (State.countLines s o idx).shelf = s.shelf ∧
    (State.countLines s o idx).mem = s.mem ∧ (State.countLines s o idx).cons = s.cons ∧
    (State.countLines s o idx).past = s.past ∧ (State.countLines s o idx).tal = s.tal ∧
    (State.countLines s o idx).partners = s.partners ∧ (State.countLines s o idx).bays = s.bays ∧
    (State.countLines s o idx).day = s.day ∧ (State.countLines s o idx).sessions = s.sessions ∧
    (State.countLines s o idx).dport = s.dport ∧ (State.countLines s o idx).events = s.events ∧
    (State.countLines s o idx).buses = s.buses ∧ (State.countLines s o idx).health = s.health := by
  unfold State.countLines; simp

@[simp] theorem State.keepOld_keeps (s : State) (o : Op) (gs : List Nat) :
    (State.keepOld s o gs).pending = s.pending ∧ (State.keepOld s o gs).size = s.size ∧ (State.keepOld s o gs).now = s.now ∧
    (State.keepOld s o gs).runStart = s.runStart ∧ (State.keepOld s o gs).free = s.free ∧
    (State.keepOld s o gs).nextId = s.nextId ∧ (State.keepOld s o gs).wire = s.wire ∧
    (State.keepOld s o gs).objs = s.objs ∧ (State.keepOld s o gs).keys = s.keys ∧
    (State.keepOld s o gs).boot = s.boot ∧ (State.keepOld s o gs).tod = s.tod ∧
    (State.keepOld s o gs).twins = s.twins ∧ (State.keepOld s o gs).ports = s.ports ∧
    (State.keepOld s o gs).seqs = s.seqs ∧ (State.keepOld s o gs).waits = s.waits ∧
    (State.keepOld s o gs).frank = s.frank ∧ (State.keepOld s o gs).table = s.table ∧
    (State.keepOld s o gs).shelf = s.shelf ∧ (State.keepOld s o gs).mem = s.mem ∧
    (State.keepOld s o gs).cons = s.cons ∧ (State.keepOld s o gs).past = s.past ∧
    (State.keepOld s o gs).tal = s.tal ∧ (State.keepOld s o gs).partners = s.partners ∧
    (State.keepOld s o gs).bays = s.bays ∧ (State.keepOld s o gs).day = s.day ∧
    (State.keepOld s o gs).sessions = s.sessions ∧ (State.keepOld s o gs).dport = s.dport ∧
    (State.keepOld s o gs).events = s.events ∧ (State.keepOld s o gs).buses = s.buses ∧
    (State.keepOld s o gs).test = s.test ∧ (State.keepOld s o gs).health = s.health := by
  unfold State.keepOld; simp

@[simp] theorem State.noSpace_keeps (s : State) (b c : Nat) :
    (State.noSpace s b c).pending = s.pending ∧ (State.noSpace s b c).size = s.size ∧ (State.noSpace s b c).now = s.now ∧
    (State.noSpace s b c).runStart = s.runStart ∧ (State.noSpace s b c).free = s.free ∧
    (State.noSpace s b c).nextId = s.nextId ∧ (State.noSpace s b c).wire = s.wire ∧
    (State.noSpace s b c).objs = s.objs ∧ (State.noSpace s b c).keys = s.keys ∧
    (State.noSpace s b c).boot = s.boot ∧ (State.noSpace s b c).tod = s.tod ∧
    (State.noSpace s b c).twins = s.twins ∧ (State.noSpace s b c).ports = s.ports ∧
    (State.noSpace s b c).seqs = s.seqs ∧ (State.noSpace s b c).ops = s.ops ∧
    (State.noSpace s b c).waits = s.waits ∧ (State.noSpace s b c).frank = s.frank ∧
    (State.noSpace s b c).table = s.table ∧ (State.noSpace s b c).shelf = s.shelf ∧
    (State.noSpace s b c).mem = s.mem ∧ (State.noSpace s b c).cons = s.cons ∧
    (State.noSpace s b c).past = s.past ∧ (State.noSpace s b c).tal = s.tal ∧
    (State.noSpace s b c).partners = s.partners ∧ (State.noSpace s b c).bays = s.bays ∧
    (State.noSpace s b c).day = s.day ∧ (State.noSpace s b c).sessions = s.sessions ∧
    (State.noSpace s b c).dport = s.dport ∧ (State.noSpace s b c).events = s.events ∧
    (State.noSpace s b c).buses = s.buses ∧ (State.noSpace s b c).health = s.health := by
  unfold State.noSpace; simp

@[simp] theorem State.reguarantee_keeps (s : State) :
    (State.reguarantee s).pending = s.pending ∧ (State.reguarantee s).size = s.size ∧ (State.reguarantee s).now = s.now ∧
    (State.reguarantee s).runStart = s.runStart ∧ (State.reguarantee s).free = s.free ∧
    (State.reguarantee s).nextId = s.nextId ∧ (State.reguarantee s).boot = s.boot ∧
    (State.reguarantee s).tod = s.tod ∧
    (State.reguarantee s).ops = s.ops ∧ (State.reguarantee s).waits = s.waits ∧
    (State.reguarantee s).table = s.table ∧ (State.reguarantee s).shelf = s.shelf ∧
    (State.reguarantee s).mem = s.mem ∧ (State.reguarantee s).cons = s.cons ∧
    (State.reguarantee s).past = s.past ∧ (State.reguarantee s).tal = s.tal ∧
    (State.reguarantee s).partners = s.partners ∧ (State.reguarantee s).bays = s.bays ∧
    (State.reguarantee s).day = s.day ∧ (State.reguarantee s).dport = s.dport ∧
    (State.reguarantee s).health = s.health := by
  unfold State.reguarantee; simp

end Sys2Proof.Machine
end

