-- ==== Sys2Proof/Laws/Catalogue.lean ====
section
/-! SUPPORT. A write that the checks of R428 let through comes to the effect of its object, and what run bookkeeping changes. -/

namespace Sys2Proof.Machine

@[simp] theorem toBytes_length (n v : Nat) : (toBytes n v).length = n := by
  induction n generalizing v with
  | zero => rfl
  | succ n ih => simp [toBytes, ih]

/-- The bytes of a number spell it. -/
theorem ofBytes_toBytes (n v : Nat) (h : v < 256 ^ n) : ofBytes (toBytes n v) = v := by
  induction n generalizing v with
  | zero => simp at h; simp [toBytes, ofBytes, h]
  | succ n ih =>
    have hv : v / 256 < 256 ^ n := by rw [Nat.pow_succ] at h; omega
    simp only [toBytes, ofBytes, ih _ hv, BitVec.toNat_ofNat]
    omega

theorem hasIndex_of_find {i sub : Nat} {r : ObjDef} (h : Objects.find i sub = some r) : Objects.hasIndex i = true := by
  unfold Objects.find at h
  unfold Objects.hasIndex
  obtain ⟨t, ht, hf⟩ := List.exists_of_findSome?_eq_some h
  split at hf
  · have hr := List.find?_some hf
    have hm := List.mem_of_find?_eq_some hf
    rw [List.any_eq_true]
    refine ⟨t, ht, ?_⟩
    rw [List.any_eq_true]
    refine ⟨r, hm, ?_⟩
    simp only [Bool.and_eq_true, decide_eq_true_eq] at hr ⊢
    exact ⟨hr.1.1.1, hr.1.1.2⟩
  · simp at hf

/-- An object of the block's size is an index of it. -/
theorem State.hasIndex_of_objDef {s : State} {i sub : Nat} {r : ObjDef} (h : s.objDef i sub = some r) : s.hasIndex i = true := by
  unfold State.objDef at h
  unfold State.hasIndex
  split at h
  · cases h
  · next hf =>
    split at h
    · cases h
    · next hl =>
      simp only [Bool.or_eq_true, not_or, Bool.not_eq_true] at hl
      rw [hasIndex_of_find hf, hl.1]; rfl

/-- The dictionary follows the block's size alone. -/
theorem State.objDef_congr {s t : State} (h : t.size = s.size) (i sub : Nat) : t.objDef i sub = s.objDef i sub := by
  unfold State.objDef; rw [h]

theorem State.hasIndex_congr {s t : State} (h : t.size = s.size) (i : Nat) : t.hasIndex i = s.hasIndex i := by
  unfold State.hasIndex; rw [h]

/-- What an accepted write of an object leaves before it is answered. -/
def Verdict.noted (w : Verdict) (x : Session) (r : ObjDef) (i sub v : Nat) : Verdict :=
  { w with
    st := (if w.abort = 0 then w.st.noteWrite x r i sub v else w.st).count { code := 0x0150, origin := if sessClerk x.key then 2 else 3 } }

theorem State.current_key (s : State) (k : Sess) : (s.current k).key = k := by
  unfold State.current State.session
  cases h : s.sessions.find? (fun x => x.key == k) with
  | none => rfl
  | some x => have := List.find?_some h; simpa using this

/-- A write of the bytes of `v` that every check of R428 lets through, to an object that is neither a selection nor the Data Port's,
is the object's own effect, noted and answered. -/
theorem State.writeBytes_accepted (s : State) (k : Sess) (i sub : Nat) (bs : List Byte) (rep : StepReport) (r : ObjDef)
    (hf : s.objDef i sub = some r) (ha : s.accepts k i sub (ofBytes bs) = true) (hl : bs.length = r.size) (hs : r.sel = false)
    (hp : i ≠ 0x5F00) :
    s.writeBytes k i sub bs rep =
      (((s.seated k).effect (s.current k) i sub (ofBytes bs) bs rep).noted (s.current k) r i sub (ofBytes bs)).finish k none := by
  simp only [State.accepts, hf, Bool.and_eq_true] at ha
  obtain ⟨⟨hr, hse⟩, ⟨⟨⟨⟨⟨hacc, h26⟩, hpriv⟩, -⟩, hadm⟩, hst⟩⟩ := ha
  have hopen : s.openSession k = some s := by unfold State.openSession; simp [hse]
  have hx : (s.setSession (s.current k)).lapsePort.stopped = s.stopped := by
    unfold State.lapsePort State.releasePort State.stopped; split <;> simp
  have hsz : (s.setSession (s.current k)).lapsePort.size = s.size := by
    unfold State.lapsePort State.releasePort; split <;> simp
  have hsh : (s.setSession (s.current k)).lapsePort.shelf = s.shelf := by
    unfold State.lapsePort State.releasePort; split <;> simp
  have hobj : ∀ j t, (s.setSession (s.current k)).lapsePort.obj j t = s.obj j t := by
    intro j t; apply State.obj_congr; unfold State.lapsePort State.releasePort; split <;> simp
  have hmay : ∀ x r i sub, (s.setSession (s.current k)).lapsePort.mayWrite x r i sub = s.mayWrite x r i sub := by
    intro x r i sub; unfold State.mayWrite; simp only [hobj]
  have hpair : (s.setSession (s.current k)).lapsePort.clerkPair i sub = s.clerkPair i sub := by
    unfold State.clerkPair; rw [hobj, hsh]
  unfold State.writeBytes State.catAccess
  rw [if_pos hr, hopen]
  simp only [hp, decide_false, Bool.false_and, Bool.false_eq_true, if_false]
  unfold State.catWrite
  simp only [State.hasIndex_congr hsz, State.objDef_congr hsz, State.hasIndex_of_objDef hf, Bool.not_true, Bool.false_eq_true, if_false, hf,
    State.current_key]
  have h1 : ¬ (decide (r.acc = .ro) || decide (r.acc = .cnst) || (decide (i = 0x2600) && decide (sub = 2))) = true := by
    simp only [Bool.or_eq_true, decide_eq_true_eq, Bool.and_eq_true, not_or]
    simp only [Bool.not_eq_true', Bool.and_eq_false_iff, beq_eq_false_iff_ne] at h26
    refine ⟨⟨?_, ?_⟩, ?_⟩
    · rintro h; simp [h] at hacc
    · rintro h; simp [h] at hacc
    · rintro ⟨a, b⟩; cases h26 <;> contradiction
  rw [if_neg h1]
  have hlen : lengthOk r i sub bs.length = true := by
    unfold lengthOk; simp [hp, hl]
  have hstop : ¬ ((s.setSession (s.current k)).lapsePort.stopped && !stoppedWrite i sub) = true := by
    rw [hx]; cases h : s.stopped <;> simp_all
  by_cases hc : sessClerk k = true
  · rw [if_pos hc] at hpriv
    have hno : ¬ (sessClerk k && !r.clerk && !(s.setSession (s.current k)).lapsePort.clerkPair i sub) = true := by
      rw [hpair]; revert hpriv; cases r.clerk <;> cases s.clerkPair i sub <;> simp
    rw [if_neg hno]
    simp only [hc, hlen, hadm, Bool.not_true, Bool.false_and, Bool.false_eq_true, if_false, if_neg hstop, hs,
      if_neg hp, State.seated, Verdict.noted, State.current_key, if_true]
    by_cases hz : ((s.setSession (s.current k)).lapsePort.effect (s.current k) i sub (ofBytes bs) bs rep).abort = 0 <;> simp [hz]
  · rw [if_neg hc] at hpriv
    simp only [Bool.not_eq_true] at hc
    simp only [hc, hmay, hpriv, hlen, hadm, Bool.not_true, Bool.and_false, Bool.false_and, Bool.false_eq_true, if_false, if_neg hstop, hs,
      if_neg hp, State.seated, Verdict.noted, State.current_key, Bool.not_false]
    by_cases hz : ((s.setSession (s.current k)).lapsePort.effect (s.current k) i sub (ofBytes bs) bs rep).abort = 0 <;> simp [hz]

/-- The same for a number. -/
theorem State.writeNum_accepted (s : State) (k : Sess) (i sub v : Nat) (rep : StepReport) (r : ObjDef)
    (hf : s.objDef i sub = some r) (ha : s.accepts k i sub v = true) (hs : r.sel = false) (hp : i ≠ 0x5F00) :
    s.writeNum k i sub v rep =
      (((s.seated k).effect (s.current k) i sub v (toBytes r.size v) rep).noted (s.current k) r i sub v).finish k none := by
  have hv : v < 256 ^ r.size := by
    simp only [State.accepts, hf, Bool.and_eq_true] at ha
    simpa using ha.2.1.1.2
  have hb : valBytes (((s.objDef i sub).map (·.size)).getD 4) v = toBytes r.size v := by
    simp [hf, valBytes, hv]
  have ho := ofBytes_toBytes r.size v hv
  unfold State.writeNum
  rw [hb, State.writeBytes_accepted s k i sub (toBytes r.size v) rep r hf (by rw [ho]; exact ha) (toBytes_length _ _) hs hp, ho]

/-! ### What run bookkeeping changes -/

/-- A counter event changes the counts and nothing else of the test state. -/
theorem State.addCtr_test (s : State) (c n : Nat) : (s.addCtr c n).test = { s.test with ctrs := (s.addCtr c n).test.ctrs } := by
  unfold State.addCtr; simp only []; split
  · rfl
  · split <;> rfl

theorem State.count_test (s : State) (o : Occ) : (s.count o).test = { s.test with ctrs := (s.count o).test.ctrs } := by
  unfold State.count
  split
  · rfl
  · suffices h : ∀ (l : List Nat) (f : State → Nat → State) (t : State),
        (∀ t x, (f t x).test = { t.test with ctrs := (f t x).test.ctrs }) →
        (l.foldl f t).test = { t.test with ctrs := (l.foldl f t).test.ctrs } from
      h _ _ s (fun t x => by dsimp only; split <;> split <;> first | rfl | exact State.addCtr_test _ _ _)
    intro l f t hf
    induction l generalizing t with
    | nil => rfl
    | cons x l ih => rw [List.foldl_cons, ih (f t x)]; rw [hf t x]

/-- No object but those of `dayObject` changes: the relation that run bookkeeping keeps. -/
def sameObjects (s t : State) : Prop := ∀ i sub, sub < 256 → dayObject i sub = false → t.obj i sub = s.obj i sub

theorem sameObjects.refl (s : State) : sameObjects s s := fun _ _ _ _ => rfl

theorem sameObjects.trans {s t u : State} (h : sameObjects s t) (k : sameObjects t u) : sameObjects s u :=
  fun i sub hs hd => (k i sub hs hd).trans (h i sub hs hd)

theorem sameObjects.of_objs {s t : State} (h : t.objs = s.objs) : sameObjects s t := fun i sub _ _ => State.obj_congr h i sub

theorem State.setObj_same (s : State) {j tub : Nat} (v : Nat) (ht : tub < 256) (h : dayObject j tub = true) :
    sameObjects s (s.setObj j tub v) := by
  intro i sub hs hd
  apply State.obj_setObj_ne
  rw [Ne, Objects.key_inj hs ht]
  rintro ⟨rfl, rfl⟩
  rw [h] at hd; contradiction

theorem State.append_same (s : State) (n kind : Nat) (d1 d2 : W64) (d3x : Nat) : sameObjects s (s.append n kind d1 d2 d3x).1 := by
  have b8 : ∀ u : State, sameObjects u (u.bump 0x2E00 8) := fun u => u.setObj_same _ (by decide) (by decide)
  have b9 : ∀ (u : State) (n : Nat), sameObjects u (u.bump 0x2E00 9 n) := fun u n => u.setObj_same _ (by decide) (by decide)
  have st : ∀ x, sameObjects s (s.setStream n x) := fun x => sameObjects.of_objs rfl
  unfold State.append
  dsimp only
  split
  · exact (st _).trans (b8 _)
  · split
    · exact (st _).trans (b9 _ _)
    · exact ((st _).trans (b8 _)).trans (b9 _ _)

theorem State.markFlag_same (s : State) (b cause : Nat) : sameObjects s (s.markFlag b cause).1 := by
  unfold State.markFlag
  dsimp only
  split
  · exact .refl s
  · split
    · exact (s.setObj_same _ (by decide) (by decide)).trans (State.append_same _ _ _ _ _ _)
    · exact s.setObj_same _ (by decide) (by decide)

theorem State.replayCompare_same (s : State) (n kind : Nat) (d1 d2 : W64) (d3x : Nat) (hn : n < 255) :
    sameObjects s (s.replayCompare n kind d1 d2 d3x) := by
  unfold State.replayCompare
  split
  · exact .refl s
  · split
    · exact .refl s
    · dsimp only
      split
      · exact .refl s
      · split
        · exact .of_objs rfl
        · exact ((s.setObj_same (j := 0x2E01) (tub := n + 1) _ (by omega) (by simp [dayObject])).trans
            (State.setObj_same _ (j := 0x2E00) (tub := 0x0B) 3 (by decide) (by decide))).trans (.of_objs rfl)

theorem State.noteLost_same (s : State) (n first count : Nat) : sameObjects s (s.noteLost n first count) := by
  unfold State.noteLost
  split
  · exact .refl s
  · exact (State.append_same _ _ _ _ _ _).trans (State.markFlag_same _ _ _)

theorem State.setFlag_same (s : State) (b cause : Nat) : sameObjects s (s.setFlag b cause) := by
  unfold State.setFlag
  dsimp only
  split
  · exact State.markFlag_same _ _ _
  · exact (State.markFlag_same _ _ _).trans (State.noteLost_same _ _ _ _)

/-- A Daybook record changes no object but those of `dayObject`. -/
theorem State.record_same (s : State) (n kind : Nat) (d1 d2 : W64) (d3x : Nat) (always : Bool) (hn : n < 255) :
    sameObjects s (s.record n kind d1 d2 d3x always) := by
  have h0 := s.replayCompare_same n kind d1 d2 d3x hn
  unfold State.record
  dsimp only
  split
  · have h1 := h0.trans (State.append_same (s.replayCompare n kind d1 d2 d3x) n kind d1 d2 d3x)
    split
    · exact h1
    · exact h1.trans (State.noteLost_same _ _ _ _)
  · exact h0

theorem State.noteWrite_same (s : State) (x : Session) (r : ObjDef) (i sub v : Nat) : sameObjects s (s.noteWrite x r i sub v) := by
  unfold State.noteWrite
  split
  · exact .refl s
  · dsimp only
    have h := State.record_same s 24 7 (BitVec.ofNat 64 (Objects.key i sub * 2 ^ 40 + sessTransport x.key * 2 ^ 38 + x.priv * 2 ^ 36))
      (BitVec.ofNat 64 v) 0 false (by decide)
    split
    · exact h
    · refine h.trans ?_
      unfold State.markTiming
      split
      · exact State.setFlag_same _ _ _
      · exact .refl _

@[simp] theorem State.noteWrite_keeps (s : State) (x : Session) (r : ObjDef) (i sub v : Nat) :
    (s.noteWrite x r i sub v).pending = s.pending ∧ (s.noteWrite x r i sub v).size = s.size ∧ (s.noteWrite x r i sub v).now = s.now ∧ (s.noteWrite x r i sub v).runStart = s.runStart ∧
    (s.noteWrite x r i sub v).free = s.free ∧ (s.noteWrite x r i sub v).nextId = s.nextId ∧ (s.noteWrite x r i sub v).wire = s.wire ∧
    (s.noteWrite x r i sub v).keys = s.keys ∧ (s.noteWrite x r i sub v).boot = s.boot ∧ (s.noteWrite x r i sub v).tod = s.tod ∧
    (s.noteWrite x r i sub v).twins = s.twins ∧ (s.noteWrite x r i sub v).ports = s.ports ∧ (s.noteWrite x r i sub v).seqs = s.seqs ∧
    (s.noteWrite x r i sub v).ops = s.ops ∧ (s.noteWrite x r i sub v).waits = s.waits ∧ (s.noteWrite x r i sub v).frank = s.frank ∧
    (s.noteWrite x r i sub v).table = s.table ∧ (s.noteWrite x r i sub v).shelf = s.shelf ∧ (s.noteWrite x r i sub v).mem = s.mem ∧
    (s.noteWrite x r i sub v).cons = s.cons ∧ (s.noteWrite x r i sub v).past = s.past ∧ (s.noteWrite x r i sub v).tal = s.tal ∧
    (s.noteWrite x r i sub v).partners = s.partners ∧ (s.noteWrite x r i sub v).bays = s.bays ∧ (s.noteWrite x r i sub v).sessions = s.sessions ∧
    (s.noteWrite x r i sub v).dport = s.dport ∧ (s.noteWrite x r i sub v).events = s.events ∧ (s.noteWrite x r i sub v).buses = s.buses ∧
    (s.noteWrite x r i sub v).test = s.test ∧ (s.noteWrite x r i sub v).health = s.health := by
  unfold State.noteWrite; (repeat' split) <;> simp

/-- An answer that is no message touches the wire, the buses and the held outputs alone. -/
@[simp] theorem State.catAnswer_none (s : State) (k : Sess) (c : Nat) (b : List Byte) :
    (s.catAnswer k none c b).pending = s.pending ∧ (s.catAnswer k none c b).size = s.size ∧ (s.catAnswer k none c b).now = s.now ∧ (s.catAnswer k none c b).runStart = s.runStart ∧
    (s.catAnswer k none c b).free = s.free ∧ (s.catAnswer k none c b).nextId = s.nextId ∧ (s.catAnswer k none c b).objs = s.objs ∧
    (s.catAnswer k none c b).keys = s.keys ∧ (s.catAnswer k none c b).boot = s.boot ∧ (s.catAnswer k none c b).tod = s.tod ∧
    (s.catAnswer k none c b).ports = s.ports ∧ (s.catAnswer k none c b).seqs = s.seqs ∧
    (s.catAnswer k none c b).ops = s.ops ∧ (s.catAnswer k none c b).waits = s.waits ∧ (s.catAnswer k none c b).frank = s.frank ∧
    (s.catAnswer k none c b).table = s.table ∧ (s.catAnswer k none c b).shelf = s.shelf ∧ (s.catAnswer k none c b).mem = s.mem ∧
    (s.catAnswer k none c b).cons = s.cons ∧ (s.catAnswer k none c b).past = s.past ∧ (s.catAnswer k none c b).tal = s.tal ∧
    (s.catAnswer k none c b).partners = s.partners ∧ (s.catAnswer k none c b).bays = s.bays ∧ (s.catAnswer k none c b).day = s.day ∧
    (s.catAnswer k none c b).sessions = s.sessions ∧ (s.catAnswer k none c b).dport = s.dport ∧ (s.catAnswer k none c b).events = s.events ∧
    (s.catAnswer k none c b).test = s.test ∧ (s.catAnswer k none c b).health = s.health := by
  unfold State.catAnswer State.sdoResume
  dsimp only
  split
  · simp
  · split
    · split
      · split <;> simp
      · simp
    · split <;> simp
    · simp

/-- An accepted write that neither waits nor resets leaves its effect's state, but for the bookkeeping of R393, R398 and R444, and its
answer. -/
theorem Verdict.finish_keeps (w : Verdict) (x : Session) (r : ObjDef) (i sub v : Nat) (k : Sess) (hw : w.wait = false)
    (hr : w.reset = false) :
    ((w.noted x r i sub v).finish k none).pending = w.st.pending ∧ ((w.noted x r i sub v).finish k none).size = w.st.size ∧ ((w.noted x r i sub v).finish k none).now = w.st.now ∧ ((w.noted x r i sub v).finish k none).runStart = w.st.runStart ∧
    ((w.noted x r i sub v).finish k none).free = w.st.free ∧ ((w.noted x r i sub v).finish k none).nextId = w.st.nextId ∧ ((w.noted x r i sub v).finish k none).keys = w.st.keys ∧
    ((w.noted x r i sub v).finish k none).boot = w.st.boot ∧ ((w.noted x r i sub v).finish k none).tod = w.st.tod ∧
    ((w.noted x r i sub v).finish k none).ports = w.st.ports ∧ ((w.noted x r i sub v).finish k none).seqs = w.st.seqs ∧ ((w.noted x r i sub v).finish k none).ops = w.st.ops ∧
    ((w.noted x r i sub v).finish k none).waits = w.st.waits ∧ ((w.noted x r i sub v).finish k none).frank = w.st.frank ∧ ((w.noted x r i sub v).finish k none).table = w.st.table ∧
    ((w.noted x r i sub v).finish k none).shelf = w.st.shelf ∧ ((w.noted x r i sub v).finish k none).mem = w.st.mem ∧ ((w.noted x r i sub v).finish k none).cons = w.st.cons ∧
    ((w.noted x r i sub v).finish k none).past = w.st.past ∧ ((w.noted x r i sub v).finish k none).tal = w.st.tal ∧ ((w.noted x r i sub v).finish k none).partners = w.st.partners ∧
    ((w.noted x r i sub v).finish k none).bays = w.st.bays ∧ ((w.noted x r i sub v).finish k none).sessions = w.st.sessions ∧ ((w.noted x r i sub v).finish k none).dport = w.st.dport ∧
    ((w.noted x r i sub v).finish k none).events = w.st.events ∧ ((w.noted x r i sub v).finish k none).health = w.st.health := by
  unfold Verdict.finish Verdict.noted
  by_cases h : w.abort = 0 <;> simp [hw, hr, h]

theorem Verdict.finish_same (w : Verdict) (x : Session) (r : ObjDef) (i sub v : Nat) (k : Sess) (hw : w.wait = false)
    (hr : w.reset = false) : sameObjects w.st ((w.noted x r i sub v).finish k none) := by
  unfold Verdict.finish Verdict.noted
  have h1 : sameObjects w.st (if w.abort = 0 then w.st.noteWrite x r i sub v else w.st) := by
    split
    · exact State.noteWrite_same _ _ _ _ _ _
    · exact .refl _
  have h2 : ∀ (u : State) (o : Occ), sameObjects u (u.count o) := fun u o => .of_objs (by simp)
  have h3 : ∀ (u : State) (c : Nat) (b : List Byte), sameObjects u (u.catAnswer k none c b) := fun u c b => .of_objs (by simp)
  simp only [hw, hr, Bool.false_eq_true, if_false]
  exact (h1.trans (h2 _ _)).trans (h3 _ _ _)

/-- What the session of an access keeps. -/
@[simp] theorem State.seated_keeps (s : State) (k : Sess) :
    (s.seated k).pending = s.pending ∧ (s.seated k).size = s.size ∧ (s.seated k).now = s.now ∧ (s.seated k).runStart = s.runStart ∧
    (s.seated k).free = s.free ∧ (s.seated k).nextId = s.nextId ∧ (s.seated k).wire = s.wire ∧
    (s.seated k).objs = s.objs ∧ (s.seated k).keys = s.keys ∧ (s.seated k).boot = s.boot ∧
    (s.seated k).tod = s.tod ∧ (s.seated k).twins = s.twins ∧ (s.seated k).ports = s.ports ∧
    (s.seated k).seqs = s.seqs ∧ (s.seated k).ops = s.ops ∧ (s.seated k).waits = s.waits ∧
    (s.seated k).frank = s.frank ∧ (s.seated k).table = s.table ∧ (s.seated k).shelf = s.shelf ∧
    (s.seated k).mem = s.mem ∧ (s.seated k).cons = s.cons ∧ (s.seated k).past = s.past ∧
    (s.seated k).tal = s.tal ∧ (s.seated k).partners = s.partners ∧ (s.seated k).bays = s.bays ∧
    (s.seated k).day = s.day ∧ (s.seated k).events = s.events ∧ (s.seated k).buses = s.buses ∧
    (s.seated k).test = s.test ∧ (s.seated k).health = s.health := by
  unfold State.seated State.lapsePort State.releasePort; split <;> simp

@[simp] theorem State.seated_obj (s : State) (k : Sess) (i sub : Nat) : (s.seated k).obj i sub = s.obj i sub :=
  State.obj_congr (by simp) i sub

end Sys2Proof.Machine
end

