-- ==== Sys2Proof/Laws/Memory.lean ====
section
/-! SUPPORT. Every memory operation keeps the canonical form of the stacks' cells, and a byte reads as it was written last. -/

namespace Sys2Proof.Machine

/-- The canonical form of a list of cells. -/
theorem Mem.wf_iff (m : Mem) : m.wf = true ↔
    risingFrom 0 m.stack = true ∧ (m.stack.all fun c => decide (c.2 ≠ emptyByte)) = true := by
  unfold Mem.wf
  rw [Bool.and_eq_true]
  have : (fun c : Host.Cell => c.2 != emptyByte) = fun c => decide (c.2 ≠ emptyByte) := by
    funext c; by_cases h : c.2 = emptyByte <;> simp [h]
  rw [this]

/-- A change that leaves the cells alone keeps their form. -/
theorem Mem.wf_congr {m n : Mem} (h : n.stack = m.stack) : n.wf = m.wf := by unfold Mem.wf; rw [h]

theorem putByte_wf {l : List Host.Cell} (a : Nat) (b : Byte) (hr : risingFrom 0 l = true)
    (ha : (l.all fun c => decide (c.2 ≠ emptyByte)) = true) :
    risingFrom 0 (putByte l a b) = true ∧ ((putByte l a b).all fun c => decide (c.2 ≠ emptyByte)) = true :=
  canonical_setA l a b emptyByte hr ha

theorem putBytes_wf (bs : List Byte) : ∀ {l : List Host.Cell} (a : Nat), risingFrom 0 l = true →
    (l.all fun c => decide (c.2 ≠ emptyByte)) = true →
    risingFrom 0 (putBytes l a bs) = true ∧ ((putBytes l a bs).all fun c => decide (c.2 ≠ emptyByte)) = true := by
  induction bs with
  | nil => intro l a hr ha; exact ⟨hr, ha⟩
  | cons b bs ih => intro l a hr ha; exact ih (a + 1) (putByte_wf a b hr ha).1 (putByte_wf a b hr ha).2

/-- `stackWrite` keeps the canonical form. -/
theorem stackWrite_wf {m : Mem} (g : Nat) (d : List Byte) (h : m.wf = true) : (stackWrite m g d).wf = true := by
  rw [Mem.wf_iff] at h ⊢; exact putBytes_wf d (32 * g) h.1 h.2

@[simp] theorem markStored_stack (m : Mem) (g : Nat) : (markStored m g).stack = putBytes m.stack (32 * g) (zeros 32) := by
  unfold markStored; dsimp only

/-- `markStored` keeps the canonical form. -/
theorem markStored_wf {m : Mem} (g : Nat) (h : m.wf = true) : (markStored m g).wf = true := by
  have := putBytes_wf (zeros 32) (32 * g) ((Mem.wf_iff m).mp h).1 ((Mem.wf_iff m).mp h).2
  rw [Mem.wf_iff, markStored_stack]; exact this

@[simp] theorem fillHalf_stack (m : Mem) (g : Nat) (d : List Byte) (x : Bool) (c n : Nat) (p : Bool) :
    (fillHalf m g d x c n p).stack = m.stack := rfl

@[simp] theorem writeGranule_stack (m : Mem) (g : Nat) (d : List Byte) (c n : Nat) (p : Bool) :
    (writeGranule m g d c n p).stack = m.stack := rfl

@[simp] theorem dropLine_stack (m : Mem) (l : Nat) : (dropLine m l).stack = m.stack := rfl

/-- `fillHalf`, `writeGranule` and `dropLine` keep the canonical form. -/
theorem fillHalf_wf {m : Mem} (g : Nat) (d : List Byte) (x : Bool) (c n : Nat) (p : Bool) (h : m.wf = true) :
    (fillHalf m g d x c n p).wf = true := h

theorem writeGranule_wf {m : Mem} (g : Nat) (d : List Byte) (c n : Nat) (p : Bool) (h : m.wf = true) :
    (writeGranule m g d c n p).wf = true := h

theorem dropLine_wf {m : Mem} (l : Nat) (h : m.wf = true) : (dropLine m l).wf = true := h

/-- `writeBack` keeps the canonical form. -/
theorem writeBack_wf {m : Mem} (l : Nat) (h : m.wf = true) : (writeBack m l).wf = true := by
  unfold writeBack
  split
  · exact h
  · next c _ =>
    have put : ∀ (n : Mem) (g : Nat), n.wf = true →
        (if c.dirty.getLsbD (g % 2) then stackWrite n g (lineHalf c g) else n).wf = true := by
      intro n g hn; split
      · exact stackWrite_wf _ _ hn
      · exact hn
    exact put _ (2 * l + 1) (put m (2 * l) h)

/-- `writeBackHalf` keeps the canonical form. -/
theorem writeBackHalf_wf {m : Mem} (l half : Nat) (h : m.wf = true) : (writeBackHalf m l half).wf = true := by
  unfold writeBackHalf
  split
  · exact h
  · split
    · exact h
    · have hw : (stackWrite m (2 * l + half) (lineHalf (by assumption) (2 * l + half))).wf = true := stackWrite_wf _ _ h
      split <;> (dsimp only; split <;> exact hw)

/-- A fold of changes that keep the canonical form keeps it. -/
theorem foldl_wf {α : Type} (f : Mem → α → Mem) (hf : ∀ m x, m.wf = true → (f m x).wf = true) (l : List α) :
    ∀ {m : Mem}, m.wf = true → (l.foldl f m).wf = true := by
  induction l with
  | nil => intro m h; exact h
  | cons x l ih => intro m h; exact ih (hf m x h)

/-- The memory after reset has the canonical form. -/
theorem reset_mem_wf : State.reset.mem.wf = true := by decide

/-! ### Reading what was written -/

/-- A byte reads as it was written, and every other byte as before. -/
theorem stackByte_putByte (m : Mem) (a b : Nat) (v : Byte) :
    stackByte { m with stack := putByte m.stack a v } b = if b = a then v else stackByte m b :=
  getA_setA _ _ _ _ _ _ fun _ => rfl

/-- The bytes written from an address on read back; every other byte reads as before. -/
theorem getA_putBytes (bs : List Byte) : ∀ (l : List Host.Cell) (a b : Nat),
    getA (putBytes l a bs) b emptyByte =
      if a ≤ b ∧ b < a + bs.length then bs.getD (b - a) emptyByte else getA l b emptyByte := by
  induction bs with
  | nil => intro l a b; simp only [putBytes, List.length_nil]; rw [if_neg (by omega)]
  | cons v bs ih =>
    intro l a b
    simp only [putBytes, ih, List.length_cons, putByte]
    by_cases h1 : a + 1 ≤ b ∧ b < a + 1 + bs.length
    · rw [if_pos h1, if_pos (by omega), show b - a = (b - (a + 1)) + 1 by omega]; simp
    · rw [if_neg h1, getA_setA _ _ _ _ _ _ fun _ => rfl]
      by_cases h2 : b = a
      · subst h2; rw [if_pos rfl, if_pos (by omega)]; simp
      · rw [if_neg h2, if_neg (by omega)]

/-- A granule written to the stack reads back there. -/
theorem stackByte_stackWrite (m : Mem) (g : Nat) (d : List Byte) (b : Nat) :
    stackByte (stackWrite m g d) b =
      if 32 * g ≤ b ∧ b < 32 * g + d.length then d.getD (b - 32 * g) emptyByte else stackByte m b :=
  getA_putBytes d m.stack (32 * g) b

end Sys2Proof.Machine
end

