-- ==== Sys2Proof/WellFormed.lean ====
section
/-! DEFINITION. Which commands can be given: every operand within the range that the spec gives it. `exec` is defined on the others too;
a port, a bay or a counter that does not exist then takes no command. -/

namespace Sys2Proof

/-- A client port, 0 to 47 (R20). -/
def portOk (p : Nat) : Bool := p < 48

/-- A bay, 0 to 23 (R6). -/
def bayOk (b : Nat) : Bool := b < 24

/-- A pseudo-channel, 0 to 63 (R19). -/
def pcOk (p : Nat) : Bool := p < 64

/-- A bank of a PC, 0 to 63. -/
def bankOk (b : Nat) : Bool := b < 64

/-- A class, 0 to 63 (R249). -/
def clsOk (c : Nat) : Bool := c < 64

/-- A consignment identifier, 0 to 4,095 (R42). -/
def cidOk (c : Nat) : Bool := c < 4096

/-- A tile index, 32 bits (R46). -/
def tileOk (t : Nat) : Bool := t < 2 ^ 32

/-- A Tally, 0 to 16,383 (R46). -/
def tallyOk (t : Nat) : Bool := t < 16384

/-- A value of at most `n` bytes (R416). -/
def valueOk (n v : Nat) : Bool := v < 256 ^ n

/-- A session that a transport can open (R420, R430). -/
def Sess.wf : Sess → Bool
  | .can ch => ch < 4
  | .i3c => true
  | .inband p src => portOk p && decide (src < 2 ^ 20)
  | .clerk => true

/-- A message as a port can carry it: whole data flits, no more than the largest message has (R36, R38). -/
def Arrival.wf (a : Arrival) : Bool := portOk a.port && decide (a.slot < 8) && a.data.length % 64 == 0 && decide (a.data.length ≤ 131072)

/-- A sequence key (R52, R114). -/
def SrcKey.wf (k : SrcKey) : Bool := if k.fwd then k.src < 4096 else k.src < 2 ^ 20

/-- Symbol errors of a granule: positions 0 to 35 (R279). -/
def symErrOk (e : SymErr) : Bool := e.all fun x => x.1 < 36

/-- Symbol errors of a Carrel line: positions 0 to 71 (R286). -/
def lineErrOk (e : SymErr) : Bool := e.all fun x => x.1 < 72

/-- A Catalogue access: index of 16 bits, sub-index of 8 (R414). -/
def objectOk (i sub : Nat) : Bool := i < 65536 && sub < 256

/-- A stack temperature in 1/16 °C fits its object. -/
def tempOk (t : Int) : Bool := -32768 ≤ t && t < 32768

/-- The observations of a bring-up step name bays, PCs and islands that exist (R309). -/
def StepReport.wf (r : StepReport) : Bool :=
  r.islandsDown.all (· < 264) && r.twinDown ≤ 3 && r.stackDead.all bayOk && r.stackBad.all bayOk && r.capacity.all (bayOk ·.1) &&
  r.spares.all (bayOk ·.1) && r.sweeps.all (fun x => bayOk x.bay && pcOk x.pc) && r.verifyFail.all (fun x => bayOk x.1 && x.2 ≤ 64) &&
  r.carrelDead.all bayOk && r.carrelUncal.all bayOk && r.carrelClosed.all (bayOk ·.1) && r.storeBad.all bayOk

/-- A command whose operands are all in range. -/
def Instr.wf : Instr → Bool
  | .rd a | .wr a | .atom a | .admission a | .release a | .fenceFull a | .fenceRelease a | .fenceAcquire a
  | .tlyRead a | .tlyAdd a | .tlySub a | .tlyFetchAdd a | .tlyFetchSub a | .tlyWaitGe a | .tlyWaitEq a | .tlyArrive a
  | .tlyArriveWait a | .tlyClaim a | .tlySetlimit a | .tlySettimeout a | .tlySet a | .tlyFree a | .tlyArm a | .tlyDisarm a
  | .ownerLost a | .mgmtRead a | .mgmtWrite a | .contrib a | .push a | .fwr a | .fwack a | .pushack a | .result a => a.wf
  | .unknownOpcode a _ | .headerDiscard a _ => a.wf
  | .creditReturn p _ | .escapeFallback p _ | .jostleCreditHoldEnd p _ => portOk p
  | .ordRelease k | .orderingTimeout k _ | .seqStateDrop k => k.wf
  | .portConfigWrite x p v => x.wf && portOk p && valueOk 4 v
  | .bayIngress _ _ bank _ => bankOk bank
  | .stageConfirm _ b | .bayCommandIssue b | .requestAged b _ _ => bayOk b
  | .mirrorTimeout p _ => p < 4096
  | .validBitFetch l _ _ => l < 1572864
  | .rowIdlePrecharge b p k | .refreshIntervalDue b p k | .refreshLimiter b p k => bayOk b && pcOk p && bankOk k
  | .burstHoldEnd b p | .calIntervalExpiry b p | .retrainWindowOpen b p | .retrainWindowEnd b p _ | .calRunTimeout b p | .slewStep b p =>
    bayOk b && pcOk p
  | .stackReadComplete _ _ e r _ => symErrOk e && symErrOk r
  | .carrelWriteback _ bank _ _ => bankOk bank
  | .shelfReadingStep b _ e r _ => bayOk b && symErrOk e && symErrOk r
  | .pigeonholeEccError b _ => bayOk b
  | .retrievalContribution c t es => cidOk c && tileOk t && es.all fun x => symErrOk x.2.1 && symErrOk x.2.2
  | .coalescingWindow c t | .tileTimeout c t | .postmarkDigest c t => cidOk c && tileOk t
  | .batchApply c t lane _ e => cidOk c && tileOk t && decide (lane < 5) && (match e with | some x => lineErrOk x.2 | none => true)
  | .dispatchCopy c t d | .dispatchTimeout c t d => cidOk c && tileOk t && decide (d < 16)
  | .streamTileRead c es => cidOk c && es.all fun x => symErrOk x.2.1 && symErrOk x.2.2
  | .consignmentComplete c => cidOk c
  | .sortingFrameSlot | .gateChange | .timetableTakeEffect | .commitKeyExpiry | .commitDrainEnd | .commitDrainTimeout | .twinMismatch
  | .railRestore | .refclkLoss | .refclkTimeout | .bringupStepTimeout | .hostWaitTimeout | .testenRise | .sensorSchedule
  | .healthScoreUpdate | .paused | .pauseTimeout | .dataPortHoldTimeout | .heartbeat | .i3cAnswerRead | .rstdaa | .getpid | .getbcr
  | .getdcr | .getstatus | .getmwl | .getmrl | .jostleTimeout | .idcode | .extest | .clamp | .highz | .refclkReturn | .brstAssert
  | .testLogicReset | .testenFall => true
  | .leaseReturn b c => bayOk b && clsOk c
  | .meterRateWrite x c sub v => x.wf && clsOk c && decide (6 ≤ sub) && decide (sub ≤ 9) && valueOk 4 v
  | .timetableCommit x | .stageClear x | .stageValidate x | .tallyForcedFree x | .twinRejoin x | .blockReset x | .proceed x
  | .calRunRequest x | .sensorReadNow x | .newRun x | .pauseRequest x | .resume x | .postmarkSelfTest x | .logout x
  | .sessionIdleTimeout x | .loginLockoutEnd x | .dataPortOpenRead x | .dataPortOpenWrite x | .dataPortClose x | .dataPortAbandon x
  | .dataPortWindowRead x | .eventRead x | .eventReadTimeout x | .counterFreeze x | .counterResume x | .counterClearAll x
  | .counterClear x | .jostleEnable x | .jostleDisable x => x.wf
  | .commitKeyFirst x v | .commitKeySecond x v => x.wf && valueOk 8 v
  | .moveUnitCopy seg bad => decide (seg < 196608) && bad.all (· < 2 ^ 37)
  | .waiterTimeout _ => true
  | .barrierAnswerHandover t | .armedRelease t => tallyOk t
  | .todLockChange _ _ => true
  | .tallyDebugSet x v | .tallyCreateShared x v | .tallySetLimit x v | .tallySetWtimeout x v | .withdrawalDeclaration x v
  | .shadowModeWrite x v | .replaySelect x v => x.wf && valueOk 4 v
  | .twinCheckerError t => t < 2
  | .twinReexecuteDone _ | .twinRejoinStepDone _ | .coreRailLoss _ | .bypass _ | .enec _ | .disec _ => true
  | .tubeLinkFail (.link n) => n < 64
  | .tubeLinkFail (.hub i) => 204 ≤ i && i ≤ 215
  | .crossingParityError (.bay n) => bayOk n
  | .crossingParityError (.link n) => n < 64
  | .crossingParityError (.twin t) => t < 2
  | .governorWindow u _ _ _ => u.length ≤ 24
  | .bayRailLoss b _ => bayOk b
  | .brstRelease id rates sa => decide (id < 128) && decide (rates < 4) && decide (sa < 128)
  | .bringupStepComplete r => r.wf
  | .calRecordWrite x bs => x.wf && bs.length == 64
  | .erasureListWrite x bs => x.wf && bs.length ≤ 2
  | .shiftRequest x b p => x.wf && bayOk b && decide (p < 3)
  | .shiftDeferralExpiry b | .shiftGrant b | .bandSwap b | .shiftComplete b _ | .ladderStepDown b | .ladderStepUp b => bayOk b
  | .comparatorChange b s t _ => bayOk b && decide (s < 6) && decide (t < 7)
  | .stackTempPoll b t => bayOk b && tempOk t
  | .sensorReadingDone b s t => bayOk b && decide (s < 6) && tempOk t
  | .tripRestart b r | .coldRestart b r => bayOk b && tempOk r.poll && r.report.wf
  | .orderedFence x b => x.wf && bayOk b
  | .fenceLift x b r => x.wf && bayOk b && r.wf
  | .login x bs => x.wf && bs.length == 196
  | .catalogueWrite x i sub bs => x.wf && objectOk i sub && bs.length ≤ 4096
  | .dataPortWindowWrite x bs => x.wf && 1 ≤ bs.length && bs.length ≤ 4096
  | .canSdoFrame ident f => decide (ident < 2048) && f.length == 8
  | .canTransferAbandon ch => ch < 4
  | .i3cRequest bs => bs.length ≤ 65535
  | .entdaa a => a < 128
  | .setdasa s a => decide (s < 128) && decide (a < 128)
  | .setmwl n | .setmrl n => n < 65536
  | .counterControlWrite x c v => x.wf && decide (c < 1664) && valueOk 4 v
  | .samplePreload _ => true
  | .wsel n => n < 264
  | .wsp _ => true
  | .d3d b => bayOk b
  | .carrelReadComplete _ _ e => lineErrOk e
  | .reservationConfirm c b _ => cidOk c && bayOk b

end Sys2Proof
end

