-- ==== Sys2Proof/Tests/Slice0.lean ====
section
/-! SUPPORT. The model's own tests: worked examples of the spec, check values of the codes it names, an ill-formed command for each check of
well-formedness, and for every statement with hypotheses states and operands that meet them, clause by clause. Not witnessed: the inner
case of an accepted firmware image in BringUpStepsAndTheirTimeouts, whose key digest is an opaque constant (log 3). -/

namespace Sys2Proof.Tests

open Sys2Proof.Machine

-- One theorem at a time: a thread for each would not fit the memory this file is compiled in.
set_option Elab.async false

/-! ### States and messages -/

/-- The entry of a present segment of one bay, all its PCs in use. -/
def pent : Entry := { e0 := BitVec.ofNat 64 (2 ^ 62 + 0xFF * 2 ^ 37 + 1), e1 := BitVec.allOnes 64, e2 := 0x10 }
/-- A quiet running block: every bay live, ports 0 and 1 up with credits, nobody told of events. -/
def q0 : State :=
  let s : State := { boot := { code := 0x20, step := 11, held := false, brst := true, pwren := 0xFFFFFF }, now := 5000, buses := { nodeId := 0x25 } }
  let s := s.setObj 0x2090 2 0
  let s := { s with bays := s.bays.map fun (y : Bay) => { y with repair := { y.repair with state := 4, capacity := 128 } } }
  let s := (s.enablePort 0).enablePort 1
  let s := s.setPort 0 { s.port 0 with credits := List.replicate 8 5000 }
  let s := s.setPort 1 { s.port 1 with credits := List.replicate 8 5000 }
  { s with wire := [] }
/-- The same with one segment present, its valid bits known to be clear. -/
def q1 : State := { q0 with shelf := { q0.shelf with entries := [(0, pent)], regCache := [0] } }
/-- Sessions of each transport, at each privilege. -/
def sessions0 : List Session :=
  [{ key := .clerk, priv := 2 }, { key := .i3c, priv := 2 }, { key := .can 0, priv := 1, used := 10 }, { key := .inband 0 5, priv := 0 }]
/-- The quiet block with these sessions open and MGMT accepted on port 0. -/
def qs : State := ({ q0 with sessions := sessions0 } : State).setObj 0x2040 1 5
/-- The block in the stopped state. -/
def stop (s : State) : State := { s with boot := { s.boot with code := 0x31 } }
/-- Selections put into every session. -/
def selAll (s : State) (l : List (Nat × Nat × Nat)) : State :=
  { s with sessions := s.sessions.map fun x => l.foldl (fun x e => x.put e.1 e.2.1 e.2.2) x }
/-- The state after some commands. -/
def run (s : State) (l : List Instr) : State := l.foldl (fun t i => match exec i t with | .next u => u | _ => t) s
def hdr0 : Hdr := { srcid := 5, tag := 9, domain := 3 }
def rdA (addr len : Nat) (h : Hdr := hdr0) : Arrival :=
  { port := 0, hdr := { h with addr := BitVec.ofNat 54 addr, len := BitVec.ofNat 12 (len - 1) } }
def wrA (addr len fbe lbe b : Nat) (h : Hdr := hdr0) : Arrival :=
  { port := 0, hdr := { h with addr := BitVec.ofNat 54 addr, len := BitVec.ofNat 12 (len - 1), w3 := BitVec.ofNat 64 (lbe * 2 ^ 32 + fbe) }
    data := List.replicate (64 * ((len + 1) / 2)) (BitVec.ofNat 8 b) }
def tlA (n targ : Nat) (h : Hdr := hdr0) : Arrival :=
  { port := 0, hdr := { h with w3 := BitVec.ofNat 64 (n * 2 ^ 32), w4 := BitVec.ofNat 64 targ } }
def ordH (seq : Nat) (sync : Bool) : Hdr := { hdr0 with ord := true, seq := BitVec.ofNat 16 seq, sync }
/-- The words of a slip as an ADMIT's data. -/
def slipData (l : List Nat) : List Byte :=
  let b := (l.map fun n => toBytes 8 n).flatten
  b ++ List.replicate ((64 - b.length % 64) % 64) 0
/-- KIND 0 with a sorting and a shelving station. -/
def slip0 : List Nat := [0x0202600000000002, 0, 0, 0, 0x0300000000000000, 0, 0, 0, 0x0600000000000000, 0, 0, 0]
/-- KIND 1 with five stations and one destination. -/
def slip1 : List Nat :=
  [0x0215000000000002, 0x01F4000100000000, 0, 0, 0x010FF00000000000, 0xFFFFF00000, 0, 0, 0x0300000000000000, 0, 0, 0,
   0x0501100000000002, 0xFFE0, 0, 0, 0x0600000000000000, 0, 0, 0, 0x0910000000000000, 0, 0, 0, 2 ^ 54, 0x0400000000000000, 0, 0]
/-- KIND 3: a RELEASE. -/
def slip3 (cid gen : Nat) : List Nat := [0x0230600000000000, 0, cid * 2 ^ 48 + gen * 2 ^ 12, 0]
def admA (l : List Nat) (h : Hdr := hdr0) : Arrival :=
  { port := 0, hdr := { h with len := BitVec.ofNat 12 (l.length / 4 - 1) }, data := slipData l }
/-- No bay withdraws, where none of the list does. -/
theorem noneWithdrawing (s : State) (h : ∀ y ∈ s.bays, y.repair.withdrawing = 0) (c : Nat) : (s.bay c).repair.withdrawing = 0 := by
  unfold State.bay
  rw [List.getD_eq_getElem?_getD]
  rcases hc : s.bays[c]? with _ | y
  · rfl
  · exact h y (List.mem_of_getElem? hc)

/-! ### Worked examples of the spec -/

/-- The layout of the worked example of R72: bays 2, 3, 8 and 9, PC 7 of bay 8 withdrawn. -/
def exLayout (hash : Bool) : Layout :=
  { s0 := 400, k := 4, grain := 4096, hash := hash, frame := 100, bays := [2, 3, 8, 9]
    masks := [2 ^ 64 - 1, 2 ^ 64 - 1, 0xFFFFFFFFFFFFFF7F, 2 ^ 64 - 1] }

/-- 03, worked example of R72: bay 8, PC 53, local address 0x191_0040, and bay 9, PC 2 with the hash; capacity 0x3FC_0000. -/
theorem test_locate : (exLayout false).locate 0x10C5040 = (8, 53, 0x1910040) ∧ (exLayout true).locate 0x10C5040 = (9, 2, 0x1910040) ∧
    (exLayout false).cap = 0x3FC0000 := by decide +kernel

/-- R42: the words of a header written out from its table: an RD of SRCID 0x12345 in class 7 for domain 0x25, four granules at
0x1401_910C_5040, ordered with SEQ 0xBEEF and TAG 0xCAFE. -/
theorem test_header_words :
    hdrWords { opcode := 0x01, tclass := 7, domain := 0x25, srcid := 0x12345, len := 3, addr := 0x1401910C5040, ord := true
               seq := 0xBEEF, tag := 0xCAFE } =
      [0x01001c9412345003, 0x1401910C5040, 0x4000beefcafe0000, 0, 0, 0, 0, 0] := by decide +kernel

/-- R38 and the worked example after R41: a 4 KiB write is 65 flits. -/
theorem test_flits : flitsOf (List.replicate 4096 0) = 65 := by decide +kernel

/-- 06, worked example after R168: scale byte 0x7C with elements 0xA and 0x3 of MXFP4 give -0.125 and 0.1875; scale 0xFF gives NaN. -/
theorem test_mxfp4 : decodeMx 9 0x7C 0xA = .fin true 2 (-4) ∧ decodeMx 9 0x7C 0x3 = .fin false 3 (-4) ∧ decodeMx 9 0xFF 0x3 = .nan := by
  decide +kernel

/-- Adds codes of one format to one element, in their order, and gives the output code and the flags. -/
def sumOf (p : Slip) (codes : List Nat) : Nat × BitVec 4 :=
  let r := codes.foldl (fun (r : List Acc × BitVec 4) c =>
    let s := applyContribution p r.1 (toBytes (elemBytes p.ifmt) c)
    (s.1, r.2 ||| s.2)) ([if p.ledger then Acc.int 0 else Acc.empty], 0)
  (outElem p (r.1.headD .empty), r.2)

/-- fp32 sums of `n` contributions, in float mode and in Ledger L64 with LSCALE 0. -/
def fp32Float (n : Nat) : Slip := { collating := true, ifmt := 0, ofmt := 0, count := n }
def fp32Ledger (n : Nat) : Slip := { fp32Float n with ledger := true }

/-- 06, first worked example: the order matters in float mode and not in the Ledger. -/
theorem test_sum_order :
    sumOf (fp32Float 3) [0x4B800000, 0x3F800000, 0x3F800000] = (0x4B800000, 0) ∧
    sumOf (fp32Float 3) [0x3F800000, 0x3F800000, 0x4B800000] = (0x4B800001, 0) ∧
    sumOf (fp32Ledger 3) [0x4B800000, 0x3F800000, 0x3F800000] = (0x4B800001, 0) ∧
    sumOf (fp32Ledger 3) [0x3F800000, 0x4B800000, 0x3F800000] = (0x4B800001, 0) := by decide +kernel

/-- 06, second worked example: four bf16 contributions in sixteenths. -/
theorem test_sum_rounding :
    sumOf { collating := true, ifmt := 1, ofmt := 1, count := 4, ledger := true, lscale := -4 } [0x3FC0, 0x3DCD, 0x3DC0, 0x3E20] =
      (0x3FF0, 0) := by decide +kernel

/-- 06, third worked example: edge values in the Ledger. -/
theorem test_edges_ledger :
    sumOf (fp32Ledger 2) [0x5E800000, 0xFF800000] = (0, flSaturated) ∧ sumOf (fp32Ledger 2) [0x7FC00000, 0xBF800000] = (0xBF800000, flInvalid) ∧
    sumOf (fp32Ledger 2) [0x80000000, 0x80000000] = (0, 0) ∧ sumOf (fp32Ledger 2) [0x3F000000, 0x3F000000] = (0, 0) ∧
    sumOf (fp32Ledger 2) [0x3FC00000, 0x3FC00000] = (0x40800000, 0) := by decide +kernel

/-- 06, third worked example: the same values in float mode. -/
theorem test_edges_float :
    sumOf (fp32Float 2) [0x5E800000, 0xFF800000] = (0xFF800000, 0) ∧ sumOf (fp32Float 2) [0x7FC00000, 0xBF800000] = (0x7FC00000, flInvalid) ∧
    sumOf (fp32Float 2) [0x80000000, 0x80000000] = (0x80000000, 0) ∧ sumOf (fp32Float 2) [0x3F000000, 0x3F000000] = (0x3F800000, 0) ∧
    sumOf (fp32Float 2) [0x3FC00000, 0x3FC00000] = (0x40400000, 0) := by decide +kernel

/-- The slip of the all-reduce of 05, written out as its table gives it. -/
def exSlip : List Nat :=
  [0x0215600000000030, 0x01F40010800001A0, 0, 0, 0x010FF00000000000, 0x0000000400304000, 0, 0, 0x0300000000000000, 0x0000940300000000, 0x1000, 0,
   0x0501100000000004, 0xFFE0, 0, 0, 0x0600000000000000, 0, 0, 0, 0x0923000000000000, 0, 0, 0,
   0x0180000000100000, 0x0400000000000000, 0x01C0000000100000, 0x0400100000000000,
   0x0480000000100000, 0x0400200000000000, 0x08C0000000100000, 0x0400300000000000]

/-- 05, worked slip: its first section, as the table names its fields. -/
theorem test_slip : (parseSlip (admA exSlip)).any fun p =>
    p.kind == 1 && p.ntiles == 48 && p.tsize == 3 && p.ctimeout == 500 && p.window == 16 && p.ctally == some 416 &&
    p.srclo == 0x4000 && p.srchi == 0x4003 := by decide +kernel

/-- 05, worked slip: the sorting and collation sections and the destinations. -/
theorem test_slip_sections : (parseSlip (admA exSlip)).any fun p =>
    p.sorting == some (0x940300000000, 0x1000) && p.ledger && p.ifmt == 1 && p.ofmt == 1 && p.op == 0 && p.count == 4 && !p.l128 &&
    p.lscale == -32 &&
    (p.dests.map fun d => (d.push, d.port, d.daddr, d.dstid.toNat)) ==
      [(false, 6, 0x100000, 0x4000), (false, 7, 0x100000, 0x4001), (false, 18, 0x100000, 0x4002), (false, 35, 0x100000, 0x4003)] := by
  decide +kernel

/-- 05, second worked slip: tile 100 of a ring of 2 KiB tiles at 0x9418_0000_0000 lies at 0x9418_0003_2000. -/
theorem test_tile_address :
    ({ kind := 0, tsize := 2, sorting := some (0x941800000000, 0x800) } : Slip).tileAddr 100 = 0x941800032000 := by decide +kernel

/-- 07, worked example of R209: TARG 0x1234_5678 names network time 0x12_3456_7800. -/
theorem test_arm_target : (({ q0 with tod := { state := 1, offset := 0x1234560000 } } : State).armTarget 0x12345678).1 = 0x1234567800 := by
  decide +kernel

/-- 07, worked example of R198: while generation 0 is being answered, an arrival two rounds ahead is answered RETRY and counts nowhere. -/
theorem test_barrier_two_ahead :
    let s : State := { q0 with tal := { q0.tal with tallies :=
      [(7, { state := 1, owner := 3, use_ := 1, limit := 1024, value := 1024, shadow := 2, releasing := true })] } }
    (match exec (.tlyArrive (tlA 7 2)) s with
      | .next t => t.tally 7 == s.tally 7 && t.wire.any fun w => match w with | .msg 0 h _ => h.status == stRetry && h.opcode == 0x22 | _ => false
      | _ => false) = true := by decide +kernel

/-- 15, worked example of R430: the expedited upload of 0x1000:00 over channel 0 of the host at node 0x25. -/
theorem test_can_upload :
    (match exec (.canSdoFrame 0x625 [0x40, 0x00, 0x10, 0x00, 0, 0, 0, 0]) q0 with | .next t => t.wire | _ => []) =
      [.can 0x5A5 [0x43, 0x00, 0x10, 0x00, 0x00, 0x00, 0x01, 0x02]] := by decide +kernel

/-! ### Published check values of the codes that the spec names -/

/-- CRC-32C and the CRC-16 of CiA 301 of the digits 1 to 9. -/
theorem test_crc : crc32c ((List.range 9).map fun i => BitVec.ofNat 8 (0x31 + i)) = 0xE3069283 ∧
    crc16 ((List.range 9).map fun i => BitVec.ofNat 8 (0x31 + i)) = 0x31C3 := by decide +kernel

/-- FIPS 180-4: SHA-384 and SHA-256 of "abc". -/
theorem test_sha : ofBytesBe (sha384 [0x61, 0x62, 0x63]) =
    0xcb00753f45a35e8bb5a03d699ac65007272c32ab0eded1631a8b605a43ff5bed8086072ba1e7cc2358baeca134c825a7 ∧
    ofBytesBe (sha256 [0x61, 0x62, 0x63]) = 0xba7816bf8f01cfea414140de5dae2223b00361a396177a9cb410ff61f20015ad := by decide +kernel

/-- Rules R3 and R6, the tables of the four sizes: ports, segments, group sizes, ring places, partner offset, product. -/
theorem test_sizes : [Size.kz8, .kz12, .kz16, .kz24].map Size.ports = [16, 24, 32, 48] ∧
    [Size.kz8, .kz12, .kz16, .kz24].map Size.segments = [65536, 98304, 131072, 196608] ∧
    [Size.kz8, .kz12, .kz16, .kz24].map Size.groups =
      [[1, 2, 4, 8], [1, 2, 3, 4, 6, 12], [1, 2, 4, 8, 16], [1, 2, 3, 4, 6, 8, 12, 24]] ∧
    [Size.kz8, .kz12, .kz16, .kz24].map Size.ring = [2, 3, 4, 6] ∧
    [Size.kz8, .kz12, .kz16, .kz24].map Size.pairOffset = [4, 6, 8, 12] ∧ Size.kz24.product = 0x4B5A1830 := by decide

/-- Rule R29's worked example (collation held at half, Carrels untouched), and one in which Carrels are lowered as well. -/
theorem test_governor : governorCaps 45000 18500 38000 7500 = (500, 1000) ∧
    governorCaps 35000 18500 38000 7500 = (250, 933) := by decide

/-! ### Well-formedness: each check refuses an ill-formed command -/

/-- One ill-formed command for each check, and the same command well formed. -/
theorem test_wf :
    (Instr.rd { port := 48, hdr := {} }).wf = false ∧ (Instr.rd { port := 47, hdr := {} }).wf = true ∧
    (Instr.wr { port := 0, hdr := {}, data := [1] }).wf = false ∧ (Instr.wr { port := 0, slot := 8, hdr := {} }).wf = false ∧
    (Instr.creditReturn 48 0).wf = false ∧ (Instr.ordRelease { src := 2 ^ 20 }).wf = false ∧ (Instr.ordRelease { src := 5 }).wf = true ∧
    (Instr.seqStateDrop { fwd := true, src := 4096 }).wf = false ∧ (Instr.portConfigWrite (.can 4) 0 0).wf = false ∧
    (Instr.portConfigWrite (.can 3) 0 (2 ^ 32)).wf = false ∧ (Instr.portConfigWrite (.inband 48 0) 0 0).wf = false ∧
    (Instr.bayCommandIssue 24).wf = false ∧ (Instr.burstHoldEnd 0 64).wf = false ∧ (Instr.rowIdlePrecharge 0 0 64).wf = false ∧
    (Instr.rowIdlePrecharge 23 63 63).wf = true := by decide +kernel

/-- More of them. -/
theorem test_wf_more :
    (Instr.stackReadComplete 0 0 [(36, 1)] [] false).wf = false ∧ (Instr.carrelReadComplete 0 0 [(72, 1)]).wf = false ∧
    (Instr.leaseReturn 0 64).wf = false ∧ (Instr.consignmentComplete 4096).wf = false ∧ (Instr.coalescingWindow 0 (2 ^ 32)).wf = false ∧
    (Instr.armedRelease 16384).wf = false ∧ (Instr.armedRelease 16383).wf = true ∧ (Instr.mirrorTimeout 4096 0).wf = false ∧
    (Instr.validBitFetch 1572864 true true).wf = false ∧ (Instr.meterRateWrite .clerk 0 5 0).wf = false ∧
    (Instr.moveUnitCopy 196608 []).wf = false ∧ (Instr.catalogueWrite .clerk 65536 0 []).wf = false ∧
    (Instr.catalogueWrite .clerk 65535 255 []).wf = true ∧ (Instr.twinCheckerError 2).wf = false ∧ (Instr.tubeLinkFail (.hub 203)).wf = false ∧
    (Instr.tubeLinkFail (.link 64)).wf = false ∧ (Instr.shiftRequest .clerk 0 3).wf = false ∧ (Instr.stackTempPoll 0 32768).wf = false ∧
    (Instr.login .clerk [1]).wf = false ∧ (Instr.canSdoFrame 2048 (List.replicate 8 0)).wf = false ∧ (Instr.canSdoFrame 2047 [0]).wf = false ∧
    (Instr.entdaa 128).wf = false ∧ (Instr.setmwl 65536).wf = false ∧ (Instr.wsel 264).wf = false ∧ (Instr.wsel 263).wf = true ∧
    (Instr.d3d 24).wf = false ∧ (Instr.counterControlWrite .clerk 1664 0).wf = false ∧ (Instr.bringupStepComplete { twinDown := 4 }).wf = false := by
  decide +kernel

/-! ### The host's placement -/

/-- No row of the table has bits, so no word spells a command, and the placement leaves the state as it is. -/
theorem test_no_words (nbits w : Nat) (s : State) : Sys2Proof.decodeTableWord nbits w = none ∧ s.withFetchWord nbits w = s := ⟨rfl, rfl⟩

/-! ### The hypotheses of the statements about all commands -/

/-- StepRunsFrontCommand and ExecLeavesQueue: a command that waits, and one that runs. -/
theorem met_step : (∃ (c : Instr) (rest : List Instr) (s : State), s.pending = c :: rest) ∧
    (∃ (c : Instr) (s t : State), exec c s = .next t) :=
  ⟨⟨.idcode, [], { q0 with pending := [.idcode] }, rfl⟩, ⟨.testLogicReset, State.reset, _, rfl⟩⟩

/-- EmptyQueuePassesOneCycle: the reset state has an empty queue and no circulation counter set. -/
theorem met_idle : State.reset.pending = [] ∧ State.reset.setCounters = [] := by decide +kernel

/-- StepKeepsInvariant and ResetMeetsInvariant: the reset state meets the invariant, and steps. -/
theorem met_invariant : State.reset.Inv ∧ ∃ t, step State.reset = .next t := ⟨by decide +kernel, ⟨_, rfl⟩⟩

/-! ### The hypotheses of each statement, clause by clause -/

namespace TranslationIsOneToOne

theorem met :
    ∃ (l : Layout) (u : Nat) (v : Nat),
      l.bays.Nodup ∧
      l.masks.length = l.bays.length ∧
      (∀ m ∈ l.masks, m < 2 ^ 64) ∧
      0 < l.grain ∧
      l.grain ∣ 262144 ∧
      u < l.cap ∧
      v < l.cap ∧
      l.locate u = l.locate v :=
  ⟨({ s0 := 0, k := 2, bays := [3, 8], masks := [2 ^ 64 - 1, 2 ^ 53], grain := 4096, frame := 1, hash := true }), 0, 0, by decide +kernel⟩

end TranslationIsOneToOne

namespace OnlyPoolOverrunStops

def sW1 : State := q1.setPort 0 { q1.port 0 with free := List.replicate 8 0 }

theorem met :
    (∃ (c : Instr) (s : State),
      (∀ (a : Arrival) (vc : Nat), msgOf c = some a → channelOf c = some vc → s.inService a.port = true → flitsOf a.data ≤ (s.port a.port).free.getD (poolOf a vc) 0)) ∧
    (∃ (i : Instr) (s : State),
      ∃ a ∈ msgOf i,
      ∃ vc ∈ channelOf i,
      s.inService a.port = true ∧
      (s.port a.port).free.getD (poolOf a vc) 0 < flitsOf a.data) ∧
    (∃ (i : Instr) (s : State),
      ∃ a ∈ msgOf i,
      ∃ vc ∈ channelOf i,
      s.inService a.port = false) :=
  ⟨⟨(.rd (rdA 0 1)), q1, fun a vc h1 h2 _ => by cases h1; cases h2; decide +kernel⟩,
   ⟨(.rd (rdA 0 1)), sW1, by decide +kernel⟩,
   ⟨(.rd (rdA 0 1)), State.reset, by decide +kernel⟩⟩

end OnlyPoolOverrunStops

namespace ReadReturnsStoredBytes

def q2 : State := { q1 with shelf := { q1.shelf with valid := [0] }, mem := { q1.mem with carrel := [{ line := 0, gvalid := 3, dirty := 1, data := (List.range 64).map fun i => BitVec.ofNat 8 (i+1) }] } }
def aW1 : Arrival := rdA 8192 3 (ordH 7 true)

theorem met :
    ∃ (a : Arrival) (s : State),
      let m := asMsg a 0x01 0
      let gs := spanGranules m m.granules
      s.runsNow m (1 + ceilDiv (32 * m.granules) 64) = true ∧
      misaligned m = false ∧
      s.shelf.commit = none ∧
      s.check75 m.hdr.addr.toNat (32 * m.granules) (plainAccess m false) = stOk ∧
      s.linesKnown m gs = true ∧
      (∀ g ∈ gs, s.atHand m g = true) :=
  ⟨aW1, q2, by decide +kernel⟩

end ReadReturnsStoredBytes

namespace WriteStoresEnabledBytes

def q2 : State := { q1 with shelf := { q1.shelf with valid := [0] }, mem := { q1.mem with carrel := [{ line := 0, gvalid := 3, dirty := 1, data := (List.range 64).map fun i => BitVec.ofNat 8 (i+1) }] } }
def aW1 : Arrival := wrA 0 2 0xF0F0FF 0x3 7

theorem met :
    ∃ (a : Arrival) (s : State) (b : Nat),
      let m := asMsg a 0x02 0
      let g0 := hallOffset m.hdr.addr.toNat / 32
      let gs := ((List.range m.granules).filter fun i => byteEnables m i != 0).map fun i => g0 + i
      s.runsNow m 1 = true ∧
      misaligned m = false ∧
      s.shelf.commit = none ∧
      s.check75 m.hdr.addr.toNat (32 * m.granules) (plainAccess m true) = stOk ∧
      (s.entry (g0 / 2 ^ 19)).mirror = false ∧
      s.linesKnown m gs = true ∧
      s.oneBay m gs b (32 * m.granules) = true ∧
      (∀ i < m.granules, byteEnables m i ≠ 0 → byteEnables m i ≠ 0xFFFFFFFF → s.atHand m (g0 + i) = true) :=
  ⟨aW1, q2, 0, by decide +kernel⟩

end WriteStoresEnabledBytes

namespace AtomReturnsOldAndWritesResult

def q2 : State := { q1 with shelf := { q1.shelf with valid := [0] }, mem := { q1.mem with carrel := [{ line := 0, gvalid := 3, dirty := 1, data := (List.range 64).map fun i => BitVec.ofNat 8 (i+1) }] } }
def atA (addr aop sz op cmp : Nat) : Arrival := { port := 0, hdr := { hdr0 with addr := BitVec.ofNat 54 addr, w3 := BitVec.ofNat 64 (sz * 16 + aop), w4 := BitVec.ofNat 64 op, w5 := BitVec.ofNat 64 cmp } }
def aW1 : Arrival := atA 8 2 1 0x11 0x100f0e0d0c0b0a09

theorem met :
    ∃ (a : Arrival) (s : State) (b : Nat),
      let m := asMsg a 0x04 0
      let addr := hallOffset m.hdr.addr.toNat
      let n := atomBytes m
      s.runsNow m 1 = true ∧
      m.hdr.csg = false ∧
      misaligned m = false ∧
      s.shelf.commit = none ∧
      s.check75 m.hdr.addr.toNat n (plainAccess m true) = stOk ∧
      (s.entry (addr / 32 / 2 ^ 19)).mirror = false ∧
      s.linesKnown m [addr / 32] = true ∧
      s.atHand m (addr / 32) = true ∧
      s.oneBay m [addr / 32] b 32 = true :=
  ⟨aW1, q2, 0, by decide +kernel⟩

end AtomReturnsOldAndWritesResult

namespace TallyArithmeticFollowsMode

def own (t : Tally) (s : State := q0) : State := { s with tal := { s.tal with tallies := [(3, { value := 8, state := 1, owner := 3, armed := true, shadow := 4 }), (7, t)] } }
def aW1 : Arrival := tlA 7 10
def sW2 : State := own { value := 10, owner := 3, state := 1, limit := 20 }
def aW3 : Arrival := tlA 7 11

theorem met_1 :
    (∃ (a : Arrival) (s : State) (i : Instr) (top : Nat),
      (i, top) ∈ [(Instr.tlyAdd a, 1), (.tlySub a, 2), (.tlyFetchAdd a, 3), (.tlyFetchSub a, 4)] ∧
      let m := asTly a (BitVec.ofNat 64 top)
      let t0 := s.tally m.tally
      let sub := top = 2 ∨ top = 4
      s.tlyReady m = true ∧
      (t0.use_ = 0 ∨ t0.use_ = 2) ∧
      ¬ (t0.wrap = false ∧ (if sub then t0.value < m.targ else t0.limit.toNat < t0.value.toNat + m.targ.toNat))) ∧
    (∃ (a : Arrival) (s : State) (i : Instr) (top : Nat),
      (i, top) ∈ [(Instr.tlyAdd a, 1), (.tlySub a, 2), (.tlyFetchAdd a, 3), (.tlyFetchSub a, 4)] ∧
      let m := asTly a (BitVec.ofNat 64 top)
      let t0 := s.tally m.tally
      let sub := top = 2 ∨ top = 4
      s.tlyReady m = true ∧
      (t0.use_ = 0 ∨ t0.use_ = 2) ∧
      ¬ (t0.wrap = false ∧ (if sub then t0.value < m.targ else t0.limit.toNat < t0.value.toNat + m.targ.toNat))) ∧
    (∃ (a : Arrival) (s : State) (i : Instr) (top : Nat),
      (i, top) ∈ [(Instr.tlyAdd a, 1), (.tlySub a, 2), (.tlyFetchAdd a, 3), (.tlyFetchSub a, 4)] ∧
      let m := asTly a (BitVec.ofNat 64 top)
      let t0 := s.tally m.tally
      let sub := top = 2 ∨ top = 4
      s.tlyReady m = true ∧
      (t0.use_ = 0 ∨ t0.use_ = 2) ∧
      ¬ (t0.wrap = false ∧ (if sub then t0.value < m.targ else t0.limit.toNat < t0.value.toNat + m.targ.toNat))) ∧
    (∃ (a : Arrival) (s : State) (i : Instr) (top : Nat),
      (i, top) ∈ [(Instr.tlyAdd a, 1), (.tlySub a, 2), (.tlyFetchAdd a, 3), (.tlyFetchSub a, 4)] ∧
      let m := asTly a (BitVec.ofNat 64 top)
      let t0 := s.tally m.tally
      let sub := top = 2 ∨ top = 4
      s.tlyReady m = true ∧
      (t0.use_ = 0 ∨ t0.use_ = 2) ∧
      ¬ (t0.wrap = false ∧ (if sub then t0.value < m.targ else t0.limit.toNat < t0.value.toNat + m.targ.toNat))) ∧
    (∃ (a : Arrival) (s : State) (i : Instr) (top : Nat),
      (i, top) ∈ [(Instr.tlyAdd a, 1), (.tlySub a, 2), (.tlyFetchAdd a, 3), (.tlyFetchSub a, 4)] ∧
      let m := asTly a (BitVec.ofNat 64 top)
      let t0 := s.tally m.tally
      let sub := top = 2 ∨ top = 4
      s.tlyReady m = true ∧
      (t0.use_ = 0 ∨ t0.use_ = 2) ∧
      t0.wrap = false ∧
      (if sub then t0.value < m.targ else t0.limit.toNat < t0.value.toNat + m.targ.toNat)) ∧
    (∃ (a : Arrival) (s : State) (i : Instr) (top : Nat),
      (i, top) ∈ [(Instr.tlyAdd a, 1), (.tlySub a, 2), (.tlyFetchAdd a, 3), (.tlyFetchSub a, 4)] ∧
      let m := asTly a (BitVec.ofNat 64 top)
      let t0 := s.tally m.tally
      let sub := top = 2 ∨ top = 4
      s.tlyReady m = true ∧
      (t0.use_ = 0 ∨ t0.use_ = 2) ∧
      t0.wrap = false ∧
      (if sub then t0.value < m.targ else t0.limit.toNat < t0.value.toNat + m.targ.toNat)) :=
  ⟨⟨aW1, sW2, (.tlyAdd (tlA 7 10)), 1, by decide +kernel⟩,
   ⟨aW1, sW2, (.tlySub (tlA 7 10)), 2, by decide +kernel⟩,
   ⟨aW1, sW2, (.tlyFetchAdd (tlA 7 10)), 3, by decide +kernel⟩,
   ⟨aW1, sW2, (.tlyFetchSub (tlA 7 10)), 4, by decide +kernel⟩,
   ⟨aW3, sW2, (.tlyAdd (tlA 7 11)), 1, by decide +kernel⟩,
   ⟨aW3, sW2, (.tlySub (tlA 7 11)), 2, by decide +kernel⟩⟩

theorem met_2 :
    (∃ (a : Arrival) (s : State) (i : Instr) (top : Nat),
      (i, top) ∈ [(Instr.tlyAdd a, 1), (.tlySub a, 2), (.tlyFetchAdd a, 3), (.tlyFetchSub a, 4)] ∧
      let m := asTly a (BitVec.ofNat 64 top)
      let t0 := s.tally m.tally
      let sub := top = 2 ∨ top = 4
      s.tlyReady m = true ∧
      (t0.use_ = 0 ∨ t0.use_ = 2) ∧
      t0.wrap = false ∧
      (if sub then t0.value < m.targ else t0.limit.toNat < t0.value.toNat + m.targ.toNat)) ∧
    (∃ (a : Arrival) (s : State) (i : Instr) (top : Nat),
      (i, top) ∈ [(Instr.tlyAdd a, 1), (.tlySub a, 2), (.tlyFetchAdd a, 3), (.tlyFetchSub a, 4)] ∧
      let m := asTly a (BitVec.ofNat 64 top)
      let t0 := s.tally m.tally
      let sub := top = 2 ∨ top = 4
      s.tlyReady m = true ∧
      (t0.use_ = 0 ∨ t0.use_ = 2) ∧
      t0.wrap = false ∧
      (if sub then t0.value < m.targ else t0.limit.toNat < t0.value.toNat + m.targ.toNat)) :=
  ⟨⟨aW3, sW2, (.tlyFetchAdd (tlA 7 11)), 3, by decide +kernel⟩,
   ⟨aW3, sW2, (.tlyFetchSub (tlA 7 11)), 4, by decide +kernel⟩⟩

end TallyArithmeticFollowsMode

namespace TallyReadAndWaits

def own (t : Tally) (s : State := q0) : State := { s with tal := { s.tal with tallies := [(3, { value := 8, state := 1, owner := 3, armed := true, shadow := 4 }), (7, t)] } }
def aW1 : Arrival := tlA 7 0
def sW2 : State := own { value := 10, owner := 3, state := 1, limit := 20 }
def aW3 : Arrival := tlA 7 10
def aW4 : Arrival := tlA 7 11

theorem met :
    (∃ (a : Arrival) (s : State),
      let m := asTly a 0
      s.runsNow m 1 = true ∧
      m.targ = 0) ∧
    (∃ (a : Arrival) (s : State) (i : Instr) (top : Nat),
      (i, top) ∈ [(Instr.tlyWaitGe a, 8), (.tlyWaitEq a, 9)] ∧
      let m := asTly a (BitVec.ofNat 64 top)
      let t0 := s.tally m.tally
      let sat := if top = 9 then t0.value = m.targ else if t0.wrap then (t0.value - m.targ).toNat < 2 ^ 31 else m.targ ≤ t0.value
      s.runsNow m 1 = true ∧
      t0.state = 1 ∧
      (t0.owner = 0xFF ∨ t0.owner = m.hdr.domain) ∧
      (t0.use_ = 0 ∨ t0.use_ = 2) ∧
      (sat ∨ 65536 ≤ s.waiterSlots)) ∧
    (∃ (a : Arrival) (s : State) (i : Instr) (top : Nat),
      (i, top) ∈ [(Instr.tlyWaitGe a, 8), (.tlyWaitEq a, 9)] ∧
      let m := asTly a (BitVec.ofNat 64 top)
      let t0 := s.tally m.tally
      let sat := if top = 9 then t0.value = m.targ else if t0.wrap then (t0.value - m.targ).toNat < 2 ^ 31 else m.targ ≤ t0.value
      s.runsNow m 1 = true ∧
      t0.state = 1 ∧
      (t0.owner = 0xFF ∨ t0.owner = m.hdr.domain) ∧
      (t0.use_ = 0 ∨ t0.use_ = 2) ∧
      (sat ∨ 65536 ≤ s.waiterSlots)) ∧
    (∃ (a : Arrival) (s : State) (i : Instr) (top : Nat),
      (i, top) ∈ [(Instr.tlyWaitGe a, 8), (.tlyWaitEq a, 9)] ∧
      let m := asTly a (BitVec.ofNat 64 top)
      let t0 := s.tally m.tally
      let sat := if top = 9 then t0.value = m.targ else if t0.wrap then (t0.value - m.targ).toNat < 2 ^ 31 else m.targ ≤ t0.value
      s.runsNow m 1 = true ∧
      t0.state = 1 ∧
      (t0.owner = 0xFF ∨ t0.owner = m.hdr.domain) ∧
      (t0.use_ = 0 ∨ t0.use_ = 2) ∧
      ¬ sat ∧
      s.waiterSlots < 65536) ∧
    (∃ (a : Arrival) (s : State) (i : Instr) (top : Nat),
      (i, top) ∈ [(Instr.tlyWaitGe a, 8), (.tlyWaitEq a, 9)] ∧
      let m := asTly a (BitVec.ofNat 64 top)
      let t0 := s.tally m.tally
      let sat := if top = 9 then t0.value = m.targ else if t0.wrap then (t0.value - m.targ).toNat < 2 ^ 31 else m.targ ≤ t0.value
      s.runsNow m 1 = true ∧
      t0.state = 1 ∧
      (t0.owner = 0xFF ∨ t0.owner = m.hdr.domain) ∧
      (t0.use_ = 0 ∨ t0.use_ = 2) ∧
      ¬ sat ∧
      s.waiterSlots < 65536) :=
  ⟨⟨aW1, sW2, by decide +kernel⟩,
   ⟨aW3, sW2, (.tlyWaitGe (tlA 7 10)), 8, by decide +kernel⟩,
   ⟨aW3, sW2, (.tlyWaitEq (tlA 7 10)), 9, by decide +kernel⟩,
   ⟨aW4, sW2, (.tlyWaitGe (tlA 7 11)), 8, by decide +kernel⟩,
   ⟨aW4, sW2, (.tlyWaitEq (tlA 7 11)), 9, by decide +kernel⟩⟩

end TallyReadAndWaits

namespace BarrierArrivals

def own (t : Tally) (s : State := q0) : State := { s with tal := { s.tal with tallies := [(3, { value := 8, state := 1, owner := 3, armed := true, shadow := 4 }), (7, t)] } }
def aW1 : Arrival := tlA 7 1
def sW2 : State := own { value := 1, owner := 3, state := 1, use_ := 1, limit := 3, gen := 1, shadow := 2 }
def aW3 : Arrival := tlA 7 3

theorem met :
    (∃ (a : Arrival) (s : State) (i : Instr) (top : Nat),
      (i, top) ∈ [(Instr.tlyArrive a, 0x10), (.tlyArriveWait a, 0x11)] ∧
      let m := asTly a (BitVec.ofNat 64 top)
      let t0 := s.tally m.tally
      let d := (m.targ.extractLsb' 0 2 - t0.gen).toNat
      s.tlyReady m = true ∧
      t0.use_ = 1 ∧
      m.targ >>> 2 = 0 ∧
      t0.releasing = false ∧
      t0.value ≠ t0.limit ∧
      s.waiterSlots < 65536 ∧
      (d = 0 ∧ t0.value + 1 ≠ t0.limit) ∨ (d = 1 ∧ t0.shadow < t0.limit) ∧
      top = 0x10) ∧
    (∃ (a : Arrival) (s : State) (i : Instr) (top : Nat),
      (i, top) ∈ [(Instr.tlyArrive a, 0x10), (.tlyArriveWait a, 0x11)] ∧
      let m := asTly a (BitVec.ofNat 64 top)
      let t0 := s.tally m.tally
      let d := (m.targ.extractLsb' 0 2 - t0.gen).toNat
      s.tlyReady m = true ∧
      t0.use_ = 1 ∧
      m.targ >>> 2 = 0 ∧
      t0.releasing = false ∧
      t0.value ≠ t0.limit ∧
      s.waiterSlots < 65536 ∧
      (d = 0 ∧ t0.value + 1 ≠ t0.limit) ∨ (d = 1 ∧ t0.shadow < t0.limit) ∧
      top = 0x11) ∧
    (∃ (a : Arrival) (s : State) (i : Instr) (top : Nat),
      (i, top) ∈ [(Instr.tlyArrive a, 0x10), (.tlyArriveWait a, 0x11)] ∧
      let m := asTly a (BitVec.ofNat 64 top)
      let t0 := s.tally m.tally
      let d := (m.targ.extractLsb' 0 2 - t0.gen).toNat
      s.tlyReady m = true ∧
      t0.use_ = 1 ∧
      m.targ >>> 2 = 0 ∧
      t0.releasing = false ∧
      t0.value ≠ t0.limit ∧
      s.waiterSlots < 65536 ∧
      (d = 2 ∨ d = 3)) ∧
    (∃ (a : Arrival) (s : State) (i : Instr) (top : Nat),
      (i, top) ∈ [(Instr.tlyArrive a, 0x10), (.tlyArriveWait a, 0x11)] ∧
      let m := asTly a (BitVec.ofNat 64 top)
      let t0 := s.tally m.tally
      let d := (m.targ.extractLsb' 0 2 - t0.gen).toNat
      s.tlyReady m = true ∧
      t0.use_ = 1 ∧
      m.targ >>> 2 = 0 ∧
      t0.releasing = false ∧
      t0.value ≠ t0.limit ∧
      s.waiterSlots < 65536 ∧
      (d = 2 ∨ d = 3)) :=
  ⟨⟨aW1, sW2, (.tlyArrive (tlA 7 1)), 0x10, by decide +kernel⟩,
   ⟨aW1, sW2, (.tlyArriveWait (tlA 7 1)), 0x11, by decide +kernel⟩,
   ⟨aW3, sW2, (.tlyArrive (tlA 7 3)), 0x10, by decide +kernel⟩,
   ⟨aW3, sW2, (.tlyArriveWait (tlA 7 3)), 0x11, by decide +kernel⟩⟩

end BarrierArrivals

namespace TallyOwnerOperations

def own (t : Tally) (s : State := q0) : State := { s with tal := { s.tal with tallies := [(3, { value := 8, state := 1, owner := 3, armed := true, shadow := 4 }), (7, t)] } }
def aW1 : Arrival := tlA 7 5
def sW2 : State := own { value := 15, owner := 9, state := 2 }
def aW3 : Arrival := tlA 7 20
def sW4 : State := own { value := 15, owner := 3, state := 1, limit := 20, outcome := 5 }
def aW5 : Arrival := tlA 7 65535
def aW6 : Arrival := tlA 7 0
def aW7 : Arrival := tlA 7 30000
def sW8 : State := { (own { value := 15, owner := 3, state := 1, limit := 20 }) with tod := { state := 1, offset := 0 } }

theorem met_1 :
    (∃ (a : Arrival) (s : State) (i : Instr) (top : Nat),
      (i, top) ∈ [(Instr.tlyClaim a, 0x18), (.tlySetlimit a, 0x19), (.tlySettimeout a, 0x1A), (.tlySet a, 0x1B), (.tlyFree a, 0x1C), (.tlyArm a, 0x1D), (.tlyDisarm a, 0x1E)] ∧
      let m := asTly a (BitVec.ofNat 64 top)
      let t0 := s.tally m.tally
      let d := (s.armTarget m.targ).2
      let own := t0.state = 1 ∧ t0.owner = m.hdr.domain
      let plain := t0.use_ = 0 ∨ t0.use_ = 2
      let may := if top = 0x18 then (t0.state = 0 ∨ t0.state = 2 ∨ (own ∧ t0.bound = false)) ∧ m.targ >>> 4 = 0 ∧ m.targ.extractLsb' 1 2 ≠ 3 else if top = 0x19 then own ∧ (t0.use_ = 1 → t0.value = 0 ∧ t0.shadow = 0 ∧ t0.releasing = false ∧ m.targ ≠ 0) else if top = 0x1A then own ∧ m.targ >>> 16 = 0 ∧ (t0.use_ = 1 → t0.releasing = false ∧ t0.value ≠ t0.limit) else if top = 0x1B then own ∧ plain ∧ (t0.wrap = true ∨ m.targ ≤ t0.limit) else if top = 0x1C then own ∧ t0.bound = false ∧ m.targ = 0 else if top = 0x1D then own ∧ plain ∧ t0.armed = false ∧ s.tod.state = 1 ∧ 1000 ≤ d ∧ d ≤ 2 ^ 39 else own ∧ plain ∧ m.targ = 0
      s.runsNow m 1 = true ∧
      (s.tallyWaiters m.tally).isEmpty = true ∧
      (∀ w ∈ s.tal.waiters, w.tally ≠ m.tally) ∧
      m.hdr.domain ≠ 0xFF ∧
      may) ∧
    (∃ (a : Arrival) (s : State) (i : Instr) (top : Nat),
      (i, top) ∈ [(Instr.tlyClaim a, 0x18), (.tlySetlimit a, 0x19), (.tlySettimeout a, 0x1A), (.tlySet a, 0x1B), (.tlyFree a, 0x1C), (.tlyArm a, 0x1D), (.tlyDisarm a, 0x1E)] ∧
      let m := asTly a (BitVec.ofNat 64 top)
      let t0 := s.tally m.tally
      let d := (s.armTarget m.targ).2
      let own := t0.state = 1 ∧ t0.owner = m.hdr.domain
      let plain := t0.use_ = 0 ∨ t0.use_ = 2
      let may := if top = 0x18 then (t0.state = 0 ∨ t0.state = 2 ∨ (own ∧ t0.bound = false)) ∧ m.targ >>> 4 = 0 ∧ m.targ.extractLsb' 1 2 ≠ 3 else if top = 0x19 then own ∧ (t0.use_ = 1 → t0.value = 0 ∧ t0.shadow = 0 ∧ t0.releasing = false ∧ m.targ ≠ 0) else if top = 0x1A then own ∧ m.targ >>> 16 = 0 ∧ (t0.use_ = 1 → t0.releasing = false ∧ t0.value ≠ t0.limit) else if top = 0x1B then own ∧ plain ∧ (t0.wrap = true ∨ m.targ ≤ t0.limit) else if top = 0x1C then own ∧ t0.bound = false ∧ m.targ = 0 else if top = 0x1D then own ∧ plain ∧ t0.armed = false ∧ s.tod.state = 1 ∧ 1000 ≤ d ∧ d ≤ 2 ^ 39 else own ∧ plain ∧ m.targ = 0
      s.runsNow m 1 = true ∧
      (s.tallyWaiters m.tally).isEmpty = true ∧
      (∀ w ∈ s.tal.waiters, w.tally ≠ m.tally) ∧
      m.hdr.domain ≠ 0xFF ∧
      may) ∧
    (∃ (a : Arrival) (s : State) (i : Instr) (top : Nat),
      (i, top) ∈ [(Instr.tlyClaim a, 0x18), (.tlySetlimit a, 0x19), (.tlySettimeout a, 0x1A), (.tlySet a, 0x1B), (.tlyFree a, 0x1C), (.tlyArm a, 0x1D), (.tlyDisarm a, 0x1E)] ∧
      let m := asTly a (BitVec.ofNat 64 top)
      let t0 := s.tally m.tally
      let d := (s.armTarget m.targ).2
      let own := t0.state = 1 ∧ t0.owner = m.hdr.domain
      let plain := t0.use_ = 0 ∨ t0.use_ = 2
      let may := if top = 0x18 then (t0.state = 0 ∨ t0.state = 2 ∨ (own ∧ t0.bound = false)) ∧ m.targ >>> 4 = 0 ∧ m.targ.extractLsb' 1 2 ≠ 3 else if top = 0x19 then own ∧ (t0.use_ = 1 → t0.value = 0 ∧ t0.shadow = 0 ∧ t0.releasing = false ∧ m.targ ≠ 0) else if top = 0x1A then own ∧ m.targ >>> 16 = 0 ∧ (t0.use_ = 1 → t0.releasing = false ∧ t0.value ≠ t0.limit) else if top = 0x1B then own ∧ plain ∧ (t0.wrap = true ∨ m.targ ≤ t0.limit) else if top = 0x1C then own ∧ t0.bound = false ∧ m.targ = 0 else if top = 0x1D then own ∧ plain ∧ t0.armed = false ∧ s.tod.state = 1 ∧ 1000 ≤ d ∧ d ≤ 2 ^ 39 else own ∧ plain ∧ m.targ = 0
      s.runsNow m 1 = true ∧
      (s.tallyWaiters m.tally).isEmpty = true ∧
      (∀ w ∈ s.tal.waiters, w.tally ≠ m.tally) ∧
      m.hdr.domain ≠ 0xFF ∧
      may) ∧
    (∃ (a : Arrival) (s : State) (i : Instr) (top : Nat),
      (i, top) ∈ [(Instr.tlyClaim a, 0x18), (.tlySetlimit a, 0x19), (.tlySettimeout a, 0x1A), (.tlySet a, 0x1B), (.tlyFree a, 0x1C), (.tlyArm a, 0x1D), (.tlyDisarm a, 0x1E)] ∧
      let m := asTly a (BitVec.ofNat 64 top)
      let t0 := s.tally m.tally
      let d := (s.armTarget m.targ).2
      let own := t0.state = 1 ∧ t0.owner = m.hdr.domain
      let plain := t0.use_ = 0 ∨ t0.use_ = 2
      let may := if top = 0x18 then (t0.state = 0 ∨ t0.state = 2 ∨ (own ∧ t0.bound = false)) ∧ m.targ >>> 4 = 0 ∧ m.targ.extractLsb' 1 2 ≠ 3 else if top = 0x19 then own ∧ (t0.use_ = 1 → t0.value = 0 ∧ t0.shadow = 0 ∧ t0.releasing = false ∧ m.targ ≠ 0) else if top = 0x1A then own ∧ m.targ >>> 16 = 0 ∧ (t0.use_ = 1 → t0.releasing = false ∧ t0.value ≠ t0.limit) else if top = 0x1B then own ∧ plain ∧ (t0.wrap = true ∨ m.targ ≤ t0.limit) else if top = 0x1C then own ∧ t0.bound = false ∧ m.targ = 0 else if top = 0x1D then own ∧ plain ∧ t0.armed = false ∧ s.tod.state = 1 ∧ 1000 ≤ d ∧ d ≤ 2 ^ 39 else own ∧ plain ∧ m.targ = 0
      s.runsNow m 1 = true ∧
      (s.tallyWaiters m.tally).isEmpty = true ∧
      (∀ w ∈ s.tal.waiters, w.tally ≠ m.tally) ∧
      m.hdr.domain ≠ 0xFF ∧
      may) ∧
    (∃ (a : Arrival) (s : State) (i : Instr) (top : Nat),
      (i, top) ∈ [(Instr.tlyClaim a, 0x18), (.tlySetlimit a, 0x19), (.tlySettimeout a, 0x1A), (.tlySet a, 0x1B), (.tlyFree a, 0x1C), (.tlyArm a, 0x1D), (.tlyDisarm a, 0x1E)] ∧
      let m := asTly a (BitVec.ofNat 64 top)
      let t0 := s.tally m.tally
      let d := (s.armTarget m.targ).2
      let own := t0.state = 1 ∧ t0.owner = m.hdr.domain
      let plain := t0.use_ = 0 ∨ t0.use_ = 2
      let may := if top = 0x18 then (t0.state = 0 ∨ t0.state = 2 ∨ (own ∧ t0.bound = false)) ∧ m.targ >>> 4 = 0 ∧ m.targ.extractLsb' 1 2 ≠ 3 else if top = 0x19 then own ∧ (t0.use_ = 1 → t0.value = 0 ∧ t0.shadow = 0 ∧ t0.releasing = false ∧ m.targ ≠ 0) else if top = 0x1A then own ∧ m.targ >>> 16 = 0 ∧ (t0.use_ = 1 → t0.releasing = false ∧ t0.value ≠ t0.limit) else if top = 0x1B then own ∧ plain ∧ (t0.wrap = true ∨ m.targ ≤ t0.limit) else if top = 0x1C then own ∧ t0.bound = false ∧ m.targ = 0 else if top = 0x1D then own ∧ plain ∧ t0.armed = false ∧ s.tod.state = 1 ∧ 1000 ≤ d ∧ d ≤ 2 ^ 39 else own ∧ plain ∧ m.targ = 0
      s.runsNow m 1 = true ∧
      (s.tallyWaiters m.tally).isEmpty = true ∧
      (∀ w ∈ s.tal.waiters, w.tally ≠ m.tally) ∧
      m.hdr.domain ≠ 0xFF ∧
      may) ∧
    (∃ (a : Arrival) (s : State) (i : Instr) (top : Nat),
      (i, top) ∈ [(Instr.tlyClaim a, 0x18), (.tlySetlimit a, 0x19), (.tlySettimeout a, 0x1A), (.tlySet a, 0x1B), (.tlyFree a, 0x1C), (.tlyArm a, 0x1D), (.tlyDisarm a, 0x1E)] ∧
      let m := asTly a (BitVec.ofNat 64 top)
      let t0 := s.tally m.tally
      let d := (s.armTarget m.targ).2
      let own := t0.state = 1 ∧ t0.owner = m.hdr.domain
      let plain := t0.use_ = 0 ∨ t0.use_ = 2
      let may := if top = 0x18 then (t0.state = 0 ∨ t0.state = 2 ∨ (own ∧ t0.bound = false)) ∧ m.targ >>> 4 = 0 ∧ m.targ.extractLsb' 1 2 ≠ 3 else if top = 0x19 then own ∧ (t0.use_ = 1 → t0.value = 0 ∧ t0.shadow = 0 ∧ t0.releasing = false ∧ m.targ ≠ 0) else if top = 0x1A then own ∧ m.targ >>> 16 = 0 ∧ (t0.use_ = 1 → t0.releasing = false ∧ t0.value ≠ t0.limit) else if top = 0x1B then own ∧ plain ∧ (t0.wrap = true ∨ m.targ ≤ t0.limit) else if top = 0x1C then own ∧ t0.bound = false ∧ m.targ = 0 else if top = 0x1D then own ∧ plain ∧ t0.armed = false ∧ s.tod.state = 1 ∧ 1000 ≤ d ∧ d ≤ 2 ^ 39 else own ∧ plain ∧ m.targ = 0
      s.runsNow m 1 = true ∧
      (s.tallyWaiters m.tally).isEmpty = true ∧
      (∀ w ∈ s.tal.waiters, w.tally ≠ m.tally) ∧
      m.hdr.domain ≠ 0xFF ∧
      may) :=
  ⟨⟨aW1, sW2, (.tlyClaim (tlA 7 5)), 0x18, by decide +kernel⟩,
   ⟨aW3, sW4, (.tlySetlimit (tlA 7 20)), 0x19, by decide +kernel⟩,
   ⟨aW5, sW4, (.tlySettimeout (tlA 7 65535)), 0x1A, by decide +kernel⟩,
   ⟨aW3, sW4, (.tlySet (tlA 7 20)), 0x1B, by decide +kernel⟩,
   ⟨aW6, sW4, (.tlyFree (tlA 7 0)), 0x1C, by decide +kernel⟩,
   ⟨aW7, sW8, (.tlyArm (tlA 7 30000)), 0x1D, by decide +kernel⟩⟩

theorem met_2 :
    (∃ (a : Arrival) (s : State) (i : Instr) (top : Nat),
      (i, top) ∈ [(Instr.tlyClaim a, 0x18), (.tlySetlimit a, 0x19), (.tlySettimeout a, 0x1A), (.tlySet a, 0x1B), (.tlyFree a, 0x1C), (.tlyArm a, 0x1D), (.tlyDisarm a, 0x1E)] ∧
      let m := asTly a (BitVec.ofNat 64 top)
      let t0 := s.tally m.tally
      let d := (s.armTarget m.targ).2
      let own := t0.state = 1 ∧ t0.owner = m.hdr.domain
      let plain := t0.use_ = 0 ∨ t0.use_ = 2
      let may := if top = 0x18 then (t0.state = 0 ∨ t0.state = 2 ∨ (own ∧ t0.bound = false)) ∧ m.targ >>> 4 = 0 ∧ m.targ.extractLsb' 1 2 ≠ 3 else if top = 0x19 then own ∧ (t0.use_ = 1 → t0.value = 0 ∧ t0.shadow = 0 ∧ t0.releasing = false ∧ m.targ ≠ 0) else if top = 0x1A then own ∧ m.targ >>> 16 = 0 ∧ (t0.use_ = 1 → t0.releasing = false ∧ t0.value ≠ t0.limit) else if top = 0x1B then own ∧ plain ∧ (t0.wrap = true ∨ m.targ ≤ t0.limit) else if top = 0x1C then own ∧ t0.bound = false ∧ m.targ = 0 else if top = 0x1D then own ∧ plain ∧ t0.armed = false ∧ s.tod.state = 1 ∧ 1000 ≤ d ∧ d ≤ 2 ^ 39 else own ∧ plain ∧ m.targ = 0
      s.runsNow m 1 = true ∧
      (s.tallyWaiters m.tally).isEmpty = true ∧
      (∀ w ∈ s.tal.waiters, w.tally ≠ m.tally) ∧
      m.hdr.domain ≠ 0xFF ∧
      may) ∧
    (∃ (a : Arrival) (s : State) (i : Instr) (top : Nat),
      (i, top) ∈ [(Instr.tlyClaim a, 0x18), (.tlySetlimit a, 0x19), (.tlySettimeout a, 0x1A), (.tlySet a, 0x1B), (.tlyFree a, 0x1C), (.tlyArm a, 0x1D), (.tlyDisarm a, 0x1E)] ∧
      let m := asTly a (BitVec.ofNat 64 top)
      let t0 := s.tally m.tally
      let d := (s.armTarget m.targ).2
      let own := t0.state = 1 ∧ t0.owner = m.hdr.domain
      let plain := t0.use_ = 0 ∨ t0.use_ = 2
      let bad := targBad top m.targ = true
      let mine := own ∧ m.hdr.domain ≠ 0xFF
      let refused := if top = 0x18 then bad ∨ m.hdr.domain = 0xFF ∨ ¬ (t0.state = 0 ∨ t0.state = 2 ∨ (own ∧ t0.bound = false)) else bad ∨ ¬ mine ∨ (top ∈ [0x1B, 0x1D, 0x1E] ∧ ¬ plain) ∨ (top = 0x19 ∧ t0.use_ = 1 ∧ (t0.value ≠ 0 ∨ t0.shadow ≠ 0 ∨ t0.releasing = true ∨ m.targ = 0)) ∨ (top = 0x1B ∧ t0.wrap = false ∧ t0.limit < m.targ) ∨ (top = 0x1C ∧ t0.bound = true) ∨ (top = 0x1D ∧ (t0.armed = true ∨ s.tod.state ≠ 1 ∨ d < 1000 ∨ 2 ^ 39 < d))
      s.runsNow m 1 = true ∧
      (s.tallyWaiters m.tally).isEmpty = true ∧
      (∀ w ∈ s.tal.waiters, w.tally ≠ m.tally) ∧
      refused) ∧
    (∃ (a : Arrival) (s : State) (i : Instr) (top : Nat),
      (i, top) ∈ [(Instr.tlyClaim a, 0x18), (.tlySetlimit a, 0x19), (.tlySettimeout a, 0x1A), (.tlySet a, 0x1B), (.tlyFree a, 0x1C), (.tlyArm a, 0x1D), (.tlyDisarm a, 0x1E)] ∧
      let m := asTly a (BitVec.ofNat 64 top)
      let t0 := s.tally m.tally
      let d := (s.armTarget m.targ).2
      let own := t0.state = 1 ∧ t0.owner = m.hdr.domain
      let plain := t0.use_ = 0 ∨ t0.use_ = 2
      let bad := targBad top m.targ = true
      let mine := own ∧ m.hdr.domain ≠ 0xFF
      let refused := if top = 0x18 then bad ∨ m.hdr.domain = 0xFF ∨ ¬ (t0.state = 0 ∨ t0.state = 2 ∨ (own ∧ t0.bound = false)) else bad ∨ ¬ mine ∨ (top ∈ [0x1B, 0x1D, 0x1E] ∧ ¬ plain) ∨ (top = 0x19 ∧ t0.use_ = 1 ∧ (t0.value ≠ 0 ∨ t0.shadow ≠ 0 ∨ t0.releasing = true ∨ m.targ = 0)) ∨ (top = 0x1B ∧ t0.wrap = false ∧ t0.limit < m.targ) ∨ (top = 0x1C ∧ t0.bound = true) ∨ (top = 0x1D ∧ (t0.armed = true ∨ s.tod.state ≠ 1 ∨ d < 1000 ∨ 2 ^ 39 < d))
      s.runsNow m 1 = true ∧
      (s.tallyWaiters m.tally).isEmpty = true ∧
      (∀ w ∈ s.tal.waiters, w.tally ≠ m.tally) ∧
      refused) ∧
    (∃ (a : Arrival) (s : State) (i : Instr) (top : Nat),
      (i, top) ∈ [(Instr.tlyClaim a, 0x18), (.tlySetlimit a, 0x19), (.tlySettimeout a, 0x1A), (.tlySet a, 0x1B), (.tlyFree a, 0x1C), (.tlyArm a, 0x1D), (.tlyDisarm a, 0x1E)] ∧
      let m := asTly a (BitVec.ofNat 64 top)
      let t0 := s.tally m.tally
      let d := (s.armTarget m.targ).2
      let own := t0.state = 1 ∧ t0.owner = m.hdr.domain
      let plain := t0.use_ = 0 ∨ t0.use_ = 2
      let bad := targBad top m.targ = true
      let mine := own ∧ m.hdr.domain ≠ 0xFF
      let refused := if top = 0x18 then bad ∨ m.hdr.domain = 0xFF ∨ ¬ (t0.state = 0 ∨ t0.state = 2 ∨ (own ∧ t0.bound = false)) else bad ∨ ¬ mine ∨ (top ∈ [0x1B, 0x1D, 0x1E] ∧ ¬ plain) ∨ (top = 0x19 ∧ t0.use_ = 1 ∧ (t0.value ≠ 0 ∨ t0.shadow ≠ 0 ∨ t0.releasing = true ∨ m.targ = 0)) ∨ (top = 0x1B ∧ t0.wrap = false ∧ t0.limit < m.targ) ∨ (top = 0x1C ∧ t0.bound = true) ∨ (top = 0x1D ∧ (t0.armed = true ∨ s.tod.state ≠ 1 ∨ d < 1000 ∨ 2 ^ 39 < d))
      s.runsNow m 1 = true ∧
      (s.tallyWaiters m.tally).isEmpty = true ∧
      (∀ w ∈ s.tal.waiters, w.tally ≠ m.tally) ∧
      refused) ∧
    (∃ (a : Arrival) (s : State) (i : Instr) (top : Nat),
      (i, top) ∈ [(Instr.tlyClaim a, 0x18), (.tlySetlimit a, 0x19), (.tlySettimeout a, 0x1A), (.tlySet a, 0x1B), (.tlyFree a, 0x1C), (.tlyArm a, 0x1D), (.tlyDisarm a, 0x1E)] ∧
      let m := asTly a (BitVec.ofNat 64 top)
      let t0 := s.tally m.tally
      let d := (s.armTarget m.targ).2
      let own := t0.state = 1 ∧ t0.owner = m.hdr.domain
      let plain := t0.use_ = 0 ∨ t0.use_ = 2
      let bad := targBad top m.targ = true
      let mine := own ∧ m.hdr.domain ≠ 0xFF
      let refused := if top = 0x18 then bad ∨ m.hdr.domain = 0xFF ∨ ¬ (t0.state = 0 ∨ t0.state = 2 ∨ (own ∧ t0.bound = false)) else bad ∨ ¬ mine ∨ (top ∈ [0x1B, 0x1D, 0x1E] ∧ ¬ plain) ∨ (top = 0x19 ∧ t0.use_ = 1 ∧ (t0.value ≠ 0 ∨ t0.shadow ≠ 0 ∨ t0.releasing = true ∨ m.targ = 0)) ∨ (top = 0x1B ∧ t0.wrap = false ∧ t0.limit < m.targ) ∨ (top = 0x1C ∧ t0.bound = true) ∨ (top = 0x1D ∧ (t0.armed = true ∨ s.tod.state ≠ 1 ∨ d < 1000 ∨ 2 ^ 39 < d))
      s.runsNow m 1 = true ∧
      (s.tallyWaiters m.tally).isEmpty = true ∧
      (∀ w ∈ s.tal.waiters, w.tally ≠ m.tally) ∧
      refused) ∧
    (∃ (a : Arrival) (s : State) (i : Instr) (top : Nat),
      (i, top) ∈ [(Instr.tlyClaim a, 0x18), (.tlySetlimit a, 0x19), (.tlySettimeout a, 0x1A), (.tlySet a, 0x1B), (.tlyFree a, 0x1C), (.tlyArm a, 0x1D), (.tlyDisarm a, 0x1E)] ∧
      let m := asTly a (BitVec.ofNat 64 top)
      let t0 := s.tally m.tally
      let d := (s.armTarget m.targ).2
      let own := t0.state = 1 ∧ t0.owner = m.hdr.domain
      let plain := t0.use_ = 0 ∨ t0.use_ = 2
      let bad := targBad top m.targ = true
      let mine := own ∧ m.hdr.domain ≠ 0xFF
      let refused := if top = 0x18 then bad ∨ m.hdr.domain = 0xFF ∨ ¬ (t0.state = 0 ∨ t0.state = 2 ∨ (own ∧ t0.bound = false)) else bad ∨ ¬ mine ∨ (top ∈ [0x1B, 0x1D, 0x1E] ∧ ¬ plain) ∨ (top = 0x19 ∧ t0.use_ = 1 ∧ (t0.value ≠ 0 ∨ t0.shadow ≠ 0 ∨ t0.releasing = true ∨ m.targ = 0)) ∨ (top = 0x1B ∧ t0.wrap = false ∧ t0.limit < m.targ) ∨ (top = 0x1C ∧ t0.bound = true) ∨ (top = 0x1D ∧ (t0.armed = true ∨ s.tod.state ≠ 1 ∨ d < 1000 ∨ 2 ^ 39 < d))
      s.runsNow m 1 = true ∧
      (s.tallyWaiters m.tally).isEmpty = true ∧
      (∀ w ∈ s.tal.waiters, w.tally ≠ m.tally) ∧
      refused) :=
  ⟨⟨aW6, sW4, (.tlyDisarm (tlA 7 0)), 0x1E, by decide +kernel⟩,
   ⟨aW3, sW2, (.tlySetlimit (tlA 7 20)), 0x19, by decide +kernel⟩,
   ⟨aW5, sW2, (.tlySettimeout (tlA 7 65535)), 0x1A, by decide +kernel⟩,
   ⟨aW3, sW2, (.tlySet (tlA 7 20)), 0x1B, by decide +kernel⟩,
   ⟨aW6, sW2, (.tlyFree (tlA 7 0)), 0x1C, by decide +kernel⟩,
   ⟨aW7, sW2, (.tlyArm (tlA 7 30000)), 0x1D, by decide +kernel⟩⟩

theorem met_3 :
    ∃ (a : Arrival) (s : State) (i : Instr) (top : Nat),
      (i, top) ∈ [(Instr.tlyClaim a, 0x18), (.tlySetlimit a, 0x19), (.tlySettimeout a, 0x1A), (.tlySet a, 0x1B), (.tlyFree a, 0x1C), (.tlyArm a, 0x1D), (.tlyDisarm a, 0x1E)] ∧
      let m := asTly a (BitVec.ofNat 64 top)
      let t0 := s.tally m.tally
      let d := (s.armTarget m.targ).2
      let own := t0.state = 1 ∧ t0.owner = m.hdr.domain
      let plain := t0.use_ = 0 ∨ t0.use_ = 2
      let bad := targBad top m.targ = true
      let mine := own ∧ m.hdr.domain ≠ 0xFF
      let refused := if top = 0x18 then bad ∨ m.hdr.domain = 0xFF ∨ ¬ (t0.state = 0 ∨ t0.state = 2 ∨ (own ∧ t0.bound = false)) else bad ∨ ¬ mine ∨ (top ∈ [0x1B, 0x1D, 0x1E] ∧ ¬ plain) ∨ (top = 0x19 ∧ t0.use_ = 1 ∧ (t0.value ≠ 0 ∨ t0.shadow ≠ 0 ∨ t0.releasing = true ∨ m.targ = 0)) ∨ (top = 0x1B ∧ t0.wrap = false ∧ t0.limit < m.targ) ∨ (top = 0x1C ∧ t0.bound = true) ∨ (top = 0x1D ∧ (t0.armed = true ∨ s.tod.state ≠ 1 ∨ d < 1000 ∨ 2 ^ 39 < d))
      s.runsNow m 1 = true ∧
      (s.tallyWaiters m.tally).isEmpty = true ∧
      (∀ w ∈ s.tal.waiters, w.tally ≠ m.tally) ∧
      refused :=
  ⟨aW6, sW2, (.tlyDisarm (tlA 7 0)), 0x1E, by decide +kernel⟩

end TallyOwnerOperations

namespace OwnerLossOrphansTallies

def own (t : Tally) (s : State := q0) : State := { s with tal := { s.tal with tallies := [(3, { value := 8, state := 1, owner := 3, armed := true, shadow := 4 }), (7, t)] } }
def aW1 : Arrival := { port := 0, hdr := { hdr0 with w3 := 3 } }
def sW2 : State := (own { value := 10, owner := 4, state := 1 }).setObj 0x2040 1 3

theorem met :
    ∃ (a : Arrival) (s : State),
      let m := asMsg a 0x0E 0
      let lost := fun (t : Tally) => t.state = 1 ∧ t.owner ≠ 0xFF ∧ t.owner = m.lostdom
      s.unobserved = true ∧
      s.takes m 0 = true ∧
      s.alone = true ∧
      s.atTurn m = true ∧
      s.canAnswer m.port 1 = true ∧
      malformed m = false ∧
      s.clsEnabled (clsOf m) = true ∧
      (m.hdr.csg = true → s.csgStatus m = stOk) ∧
      bit (s.portCfg m.port) 1 = true ∧
      s.Inv ∧
      (∀ w ∈ s.tal.waiters, ¬ lost (s.tally w.tally)) :=
  ⟨aW1, sW2, by decide +kernel⟩

end OwnerLossOrphansTallies

namespace FencesCompleteOrWait

def fa : Arrival := { port := 0, hdr := hdr0 }
def inFlight (id : Nat) (kd : ReqKind) (src : Nat) : Op := { id := id, kind := kd, msg := { port := 0, hdr := { opcode := 1, srcid := BitVec.ofNat 20 src } } }
def sW1 : State := { q0 with ops := [inFlight 0 .rd 5, inFlight 1 .wr 5, inFlight 2 .atom 5, inFlight 3 .rd 6], nextId := 9 }

theorem met :
    (∃ (a : Arrival) (s : State) (i : Instr) (k : Nat),
      (i, k) ∈ [(Instr.fenceFull a, 0), (.fenceRelease a, 1), (.fenceAcquire a, 2)] ∧
      let m := withW3 (asMsg a 0x0C 0) 3 (BitVec.ofNat 64 k)
      s.runsNow m 1 = true) ∧
    (∃ (a : Arrival) (s : State) (i : Instr) (k : Nat),
      (i, k) ∈ [(Instr.fenceFull a, 0), (.fenceRelease a, 1), (.fenceAcquire a, 2)] ∧
      let m := withW3 (asMsg a 0x0C 0) 3 (BitVec.ofNat 64 k)
      s.runsNow m 1 = true) ∧
    (∃ (a : Arrival) (s : State) (i : Instr) (k : Nat),
      (i, k) ∈ [(Instr.fenceFull a, 0), (.fenceRelease a, 1), (.fenceAcquire a, 2)] ∧
      let m := withW3 (asMsg a 0x0C 0) 3 (BitVec.ofNat 64 k)
      s.runsNow m 1 = true) ∧
    (∃ (a : Arrival) (s : State) (i : Instr) (k : Nat),
      (i, k) ∈ [(Instr.fenceFull a, 0), (.fenceRelease a, 1), (.fenceAcquire a, 2)] ∧
      let m := withW3 (asMsg a 0x0C 0) 3 (BitVec.ofNat 64 k)
      let l := s.ops.filter fun o => o.msg.hdr.srcid == m.hdr.srcid && o.msg.hdr.opcode != 0 && (o.kind == .atom || (o.kind == .rd && k != 1) || (o.kind == .wr && k != 2)) && !(k == 2 && o.stage == .mirror)
      s.unobserved = true ∧
      s.takes m 0 = true ∧
      s.franksNow m = true ∧
      m.hdr.ord = false ∧
      m.hdr.csg = false ∧
      malformed m = false ∧
      s.seqs = [] ∧
      s.waits = [] ∧
      (∀ o ∈ s.ops, o.id < s.nextId) ∧
      l ≠ []) ∧
    (∃ (a : Arrival) (s : State) (i : Instr) (k : Nat),
      (i, k) ∈ [(Instr.fenceFull a, 0), (.fenceRelease a, 1), (.fenceAcquire a, 2)] ∧
      let m := withW3 (asMsg a 0x0C 0) 3 (BitVec.ofNat 64 k)
      let l := s.ops.filter fun o => o.msg.hdr.srcid == m.hdr.srcid && o.msg.hdr.opcode != 0 && (o.kind == .atom || (o.kind == .rd && k != 1) || (o.kind == .wr && k != 2)) && !(k == 2 && o.stage == .mirror)
      s.unobserved = true ∧
      s.takes m 0 = true ∧
      s.franksNow m = true ∧
      m.hdr.ord = false ∧
      m.hdr.csg = false ∧
      malformed m = false ∧
      s.seqs = [] ∧
      s.waits = [] ∧
      (∀ o ∈ s.ops, o.id < s.nextId) ∧
      l ≠ []) ∧
    (∃ (a : Arrival) (s : State) (i : Instr) (k : Nat),
      (i, k) ∈ [(Instr.fenceFull a, 0), (.fenceRelease a, 1), (.fenceAcquire a, 2)] ∧
      let m := withW3 (asMsg a 0x0C 0) 3 (BitVec.ofNat 64 k)
      let l := s.ops.filter fun o => o.msg.hdr.srcid == m.hdr.srcid && o.msg.hdr.opcode != 0 && (o.kind == .atom || (o.kind == .rd && k != 1) || (o.kind == .wr && k != 2)) && !(k == 2 && o.stage == .mirror)
      s.unobserved = true ∧
      s.takes m 0 = true ∧
      s.franksNow m = true ∧
      m.hdr.ord = false ∧
      m.hdr.csg = false ∧
      malformed m = false ∧
      s.seqs = [] ∧
      s.waits = [] ∧
      (∀ o ∈ s.ops, o.id < s.nextId) ∧
      l ≠ []) :=
  ⟨⟨fa, q0, (.fenceFull fa), 0, by decide +kernel⟩,
   ⟨fa, q0, (.fenceRelease fa), 1, by decide +kernel⟩,
   ⟨fa, q0, (.fenceAcquire fa), 2, by decide +kernel⟩,
   ⟨fa, sW1, (.fenceFull fa), 0, by decide +kernel⟩,
   ⟨fa, sW1, (.fenceRelease fa), 1, by decide +kernel⟩,
   ⟨fa, sW1, (.fenceAcquire fa), 2, by decide +kernel⟩⟩

end FencesCompleteOrWait

namespace AdmitOpensConsignment

def aW1 : Arrival := admA slip0
def aW2 : Arrival := admA slip1

theorem met :
    (∃ (a : Arrival) (s : State) (cid : Nat),
      let m := asMsg a 0x08 0
      s.runsNow m 1 = true ∧
      m.hdr.csg = false ∧
      ∃ p ∈ parseSlip m,
      p.kind ≠ 3 ∧
      p.ctally = none ∧
      p.ttally = none ∧
      p.postmark = none ∧
      s.slipRefused m p = false ∧
      s.classRefuses m p = false ∧
      s.slipStatus m p = stOk ∧
      cid < 4096 ∧
      s.con cid = none ∧
      (∀ k < cid, (s.con k).isSome = true)) ∧
    (∃ (a : Arrival) (s : State) (cid : Nat),
      let m := asMsg a 0x08 0
      s.runsNow m 1 = true ∧
      m.hdr.csg = false ∧
      ∃ p ∈ parseSlip m,
      p.kind ≠ 3 ∧
      p.ctally = none ∧
      p.ttally = none ∧
      p.postmark = none ∧
      s.slipRefused m p = false ∧
      s.classRefuses m p = false ∧
      s.slipStatus m p = stOk ∧
      cid < 4096 ∧
      s.con cid = none ∧
      (∀ k < cid, (s.con k).isSome = true)) :=
  ⟨⟨aW1, q1, 0, by decide +kernel⟩,
   ⟨aW2, q1, 0, by decide +kernel⟩⟩

end AdmitOpensConsignment

namespace ReleaseEndsConsignment

def adm : State := run q1 [.admission (admA slip0)]
def aW1 : Arrival := admA (slip3 0 1)
def aW2 : Arrival := admA (slip3 1 1)

theorem met :
    (∃ (a : Arrival) (s : State),
      let m : Arrival := { asMsg a 0x08 0 with data := a.data.set 6 (0x30 ||| (a.data.getD 6 0 &&& 0x0F)) }
      s.runsNow m 1 = true ∧
      m.hdr.csg = false ∧
      ∃ p ∈ parseSlip m,
      p.kind = 3 ∧
      ∃ c ∈ s.con p.rcid,
      c.state = .active ∧
      c.cgen = p.rcgen ∧
      c.msg.hdr.domain = m.hdr.domain ∧
      c.slip.kind = 0 ∧
      c.slip.ctally = none ∧
      c.slip.ttally = none ∧
      c.tiles = [] ∧
      c.outcome ≠ stFenced ∧
      c.outcome ≠ stUncorr ∧
      (∀ x ∈ s.cons, x.cid = c.cid → x = c)) ∧
    (∃ (a : Arrival) (s : State),
      let m : Arrival := { asMsg a 0x08 0 with data := a.data.set 6 (0x30 ||| (a.data.getD 6 0 &&& 0x0F)) }
      s.runsNow m 1 = true ∧
      m.hdr.csg = false ∧
      ∃ p ∈ parseSlip m,
      p.kind = 3 ∧
      (∀ c, s.con p.rcid = some c → c.state ≠ .active ∨ c.cgen ≠ p.rcgen ∨ c.msg.hdr.domain ≠ m.hdr.domain)) :=
  ⟨⟨aW1, adm, by decide +kernel⟩,
   ⟨aW2, adm, by decide +kernel⟩⟩

end ReleaseEndsConsignment

namespace ContributionsAreCounted

def conOpen : State :=
  let t := run q1 [.admission (admA slip1)]
  run t ((t.con 0).elim [] fun c => c.await.map fun b => .reservationConfirm 0 b true)
def conH (tile w3 : Nat) (last : Bool) : Arrival := { port := 0, hdr := { hdr0 with cid := 0, cgen := 1, len := 15, last, w3 := BitVec.ofNat 64 w3, w4 := BitVec.ofNat 64 tile }, data := (List.replicate 256 [(0 : Byte), 0x3f]).flatten }
def aW1 : Arrival := conH 0 1 false
def aW2 : Arrival := conH 0 0 false

theorem met :
    (∃ (a : Arrival) (s : State) (push : Bool),
      let m := if push then asMsg a 0x42 2 else asMsg a 0x61 3
      let vc := if push then 2 else 3
      s.runsNow m 1 vc = true ∧
      m.hdr.ord = false ∧
      s.contribStatus m = stOk ∧
      ∃ c ∈ s.con m.hdr.cid.toNat,
      ∃ k ∈ c.tile? m.tile,
      k.count + 1 < c.slip.count ∧
      c.slip.postmark = none ∧
      push = true) ∧
    (∃ (a : Arrival) (s : State) (push : Bool),
      let m := if push then asMsg a 0x42 2 else asMsg a 0x61 3
      let vc := if push then 2 else 3
      s.runsNow m 1 vc = true ∧
      m.hdr.ord = false ∧
      s.contribStatus m = stOk ∧
      ∃ c ∈ s.con m.hdr.cid.toNat,
      ∃ k ∈ c.tile? m.tile,
      k.count + 1 < c.slip.count ∧
      c.slip.postmark = none ∧
      push = false ∧
      m.ackreq) ∧
    (∃ (a : Arrival) (s : State) (push : Bool),
      let m := if push then asMsg a 0x42 2 else asMsg a 0x61 3
      let vc := if push then 2 else 3
      s.runsNow m 1 vc = true ∧
      m.hdr.ord = false ∧
      s.contribStatus m = stOk ∧
      ∃ c ∈ s.con m.hdr.cid.toNat,
      ∃ k ∈ c.tile? m.tile,
      k.count + 1 < c.slip.count ∧
      c.slip.postmark = none ∧
      push = false ∧
      ¬ (m.ackreq)) ∧
    (∃ (a : Arrival) (s : State),
      let m := asMsg a 0x62 3
      s.unobserved = true ∧
      s.takes m 3 = true ∧
      s.alone = true) :=
  ⟨⟨aW1, conOpen, true, by decide +kernel⟩,
   ⟨aW1, conOpen, false, by decide +kernel⟩,
   ⟨aW2, conOpen, false, by decide +kernel⟩,
   ⟨aW1, conOpen, by decide +kernel⟩⟩

end ContributionsAreCounted

namespace MirrorWriteIsPerformedAndAnswered

def q2 : State := { q1 with shelf := { q1.shelf with valid := [0] }, mem := { q1.mem with carrel := [{ line := 0, gvalid := 3, dirty := 1, data := (List.range 64).map fun i => BitVec.ofNat 8 (i+1) }] } }
def fwrA (addr len : Nat) (h : Hdr := ordH 4 true) : Arrival := { port := 0, hdr := { h with addr := BitVec.ofNat 54 addr, len := BitVec.ofNat 12 (len-1) }, data := (List.range (64 * ((len + 1)/2))).map fun i => BitVec.ofNat 8 (i+1) }
def aW1 : Arrival := fwrA 64 3

theorem met :
    ∃ (a : Arrival) (s : State) (b : Nat),
      let m := asMsg a 0x41 2
      let gs := spanGranules m m.granules
      s.unobserved = true ∧
      s.takes m 2 = true ∧
      s.alone = true ∧
      s.atTurn m = true ∧
      s.canAnswer m.port 1 = true ∧
      malformed m = false ∧
      misaligned m = false ∧
      s.shelf.commit = none ∧
      s.check75 m.hdr.addr.toNat (32 * m.granules) { domain := 0, tclass := 0, exempt := true } = stOk ∧
      s.linesKnown m gs = true ∧
      s.oneBay m gs b (32 * m.granules) = true :=
  ⟨aW1, q2, 0, by decide +kernel⟩

end MirrorWriteIsPerformedAndAnswered

namespace AcknowledgesEndWhatTheyAnswer

def wm : Arrival := asMsg (wrA 0 1 0 0 7) 0x02 0
def sent1 (tag : Nat) (op : Option Nat) : SentFwr := { tag := BitVec.ofNat 16 tag, seq := 0, sync := true, port := 1, home := 0, op := op, tile := none, hdr := {}, data := [], deadline := 9000 }
def om : Op := { id := 3, kind := .wr, msg := wm, stage := .mirror }
def qm : State := { q1 with nextId := 4, ops := [om], partners := [{ block := 2, unanswered := [sent1 7 none] }, { block := 6, nextSeq := 2, nextTag := 3, needSync := false, unanswered := [sent1 1 none, sent1 9 (some 3)] }] }
def ackA (tag : Nat) : Arrival := { port := 1, hdr := { tag := BitVec.ofNat 16 tag } }
def tile0 : Tile := { idx := 4, bay := 3, openedAt := 0, phase := .posted, copies := [.sent, .pushed 9 6, .waiting] }
def con0 : Con := { cid := 5, state := .active, cgen := 1, msg := wm, slip := {}, bytes := [], ctns := 0, tiles := [tile0] }
def aW1 : Arrival := ackA 9
def sW2 : State := { q1 with cons := [con0] }
def aW3 : Arrival := ackA 8

theorem met :
    (∃ (a : Arrival) (s : State) (o : Op),
      let m := asMsg a 0x26 1
      s.unobserved = true ∧
      s.takes m 1 = true ∧
      malformed m = false ∧
      m.hdr.status = stOk ∧
      ∃ q ∈ s.fwrByTag m.hdr.tag,
      let p := q.1
      let x := q.2
      s.partner p.block = p ∧
      x.op = some o.id ∧
      s.ops = [o] ∧
      o.id < s.nextId ∧
      s.waits = [] ∧
      o.kind = .wr ∧
      o.stage = .mirror ∧
      o.msg.hdr.ord = false ∧
      s.inService o.msg.port = true ∧
      s.canAnswer o.msg.port 1 = true) ∧
    (∃ (a : Arrival) (s : State) (c : Con) (k : Tile) (n : Nat) (j : Nat) (blk : Nat),
      let m := asMsg a 0x27 1
      s.unobserved = true ∧
      s.takes m 1 = true ∧
      s.alone = true ∧
      malformed m = false ∧
      m.hdr.status = stOk ∧
      s.cons = [c] ∧
      c.tiles = [k] ∧
      k.copies.findIdx (fun x => match x with | .pushed g _ => g == m.hdr.tag | _ => false) = n ∧
      k.copies[n]? = some (.pushed m.hdr.tag blk) ∧
      k.copies[j]? = some .waiting) ∧
    (∃ (a : Arrival) (s : State) (i : Instr) (op : BitVec 8),
      (i, op) ∈ [(Instr.fwack a, 0x26#8), (.pushack a, 0x27#8)] ∧
      let m := asMsg a op 1
      s.unobserved = true ∧
      s.takes m 1 = true ∧
      s.alone = true ∧
      s.fwrByTag m.hdr.tag = none ∧
      (∀ c ∈ s.cons, ∀ k ∈ c.tiles, ∀ x ∈ k.copies, ∀ b, x ≠ .pushed m.hdr.tag b)) :=
  ⟨⟨aW1, qm, om, by decide +kernel⟩,
   ⟨aW1, sW2, con0, tile0, 1, 2, 6, by decide +kernel⟩,
   ⟨aW3, q1, (.fwack (ackA 8)), 0x26, by decide +kernel, by decide +kernel, by decide +kernel, by decide +kernel, by decide +kernel, fun c h => nomatch (show c ∈ [] from h)⟩⟩

end AcknowledgesEndWhatTheyAnswer

namespace InBandAccessesAreAnswered

def qin : State := ({ q1 with sessions := [{ key := .i3c }, { key := .inband 0 5, priv := 2, used := 10 }] } : State).setObj 0x2040 1 5
def mgA (i sub : Nat) (data : List Byte := []) (h : Hdr := hdr0) : Arrival := { port := 0, hdr := { h with w3 := BitVec.ofNat 64 (sub * 2^16 + i) }, data := data }
def aW1 : Arrival := mgA 0x2D00 3
def aW2 : Arrival := mgA 0x2D00 7 (padTo 64 (toBytes 2 5))

theorem met :
    (∃ (a : Arrival) (s : State),
      let m := withW3 (asMsg a 0x0F 0) 0x1000000 0
      let k := Sess.inband m.port m.hdr.srcid.toNat
      let code := if s.hasIndex m.mindex = false then 0x06020000 else match s.objDef m.mindex m.msub with | none => 0x06090011 | some r => if r.acc = .wo then 0x06010001 else if m.mindex = 0x2C60 ∧ (s.current k).priv < 2 then 0x06010000 else 0
      let value := if code = 0 then (match s.objDef m.mindex m.msub with | some r => (s.seated k).readObj (s.current k) r m.mindex m.msub | none => []) else []
      let g := ceilDiv value.length 32
      s.unobserved = true ∧
      s.takes m 0 = true ∧
      s.alone = true ∧
      malformed m = false ∧
      s.clsEnabled (clsOf m) = true ∧
      bit (s.portCfg m.port) 2 = true ∧
      m.hdr.ord = false ∧
      m.hdr.csg = false ∧
      m.hdr.seq = 0 ∧
      (s.session k).isSome = true ∧
      (plainRead m.mindex m.msub = true ∨ (m.mindex = 0x2C60 ∧ s.obj 0x2E00 1 ≠ 1) ∨ code ≠ 0) ∧
      s.canAnswer m.port (1 + ceilDiv g 2) = true ∧
      (∀ (u : State) (x : Session), u.computed x m.mindex m.msub = none) ∧
      ∃ r ∈ s.objDef m.mindex m.msub,
      code = 0 ∧
      r.sel = false) ∧
    (∃ (a : Arrival) (s : State) (v : Nat),
      let m := withW3 (asMsg a 0x0F 0) 0x1000000 0x1000000
      let k := Sess.inband m.port m.hdr.srcid.toNat
      s.unobserved = true ∧
      s.takes m 0 = true ∧
      s.alone = true ∧
      malformed m = false ∧
      s.clsEnabled (clsOf m) = true ∧
      bit (s.portCfg m.port) 2 = true ∧
      m.hdr.ord = false ∧
      m.hdr.csg = false ∧
      m.hdr.seq = 0 ∧
      s.determinism = false ∧
      ∃ r ∈ s.objDef m.mindex m.msub,
      plainWrite m.mindex m.msub = true ∧
      s.accepts k m.mindex m.msub v = true ∧
      m.payload = padTo (32 * ceilDiv r.size 32) (toBytes r.size v) ∧
      s.canAnswer m.port 1 = true) :=
  ⟨⟨aW1, qin, by decide +kernel, by decide +kernel, by decide +kernel, by decide +kernel, by decide +kernel, by decide +kernel, by decide +kernel, by decide +kernel, by decide +kernel, by decide +kernel, by decide +kernel, by decide +kernel, fun _ _ => rfl, by decide +kernel⟩,
   ⟨aW2, qin, 5, by decide +kernel⟩⟩

end InBandAccessesAreAnswered

namespace UnknownDamagedAndStopped

def unk : Arrival := { port := 0, hdr := { hdr0 with opcode := 0x7F }, data := List.replicate 64 1 }
def sW1 : State := { q1 with boot := { q1.boot with code := 0x31 } }

theorem met :
    (∃ (a : Arrival) (vc : BitVec 2) (s : State),
      s.unobserved = true ∧
      s.takes a vc.toNat = true ∧
      s.alone = true ∧
      opcodeKnown a vc.toNat = false ∧
      a.hdr.ord = false ∧
      a.hdr.opcode ∉ [0x01#8, 0x04, 0x0D, 0x0F, 0x41, 0x42] ∧
      s.canAnswer a.port 1 = true ∧
      vc = 1) ∧
    (∃ (a : Arrival) (vc : BitVec 2) (s : State),
      s.unobserved = true ∧
      s.takes a vc.toNat = true ∧
      s.alone = true ∧
      opcodeKnown a vc.toNat = false ∧
      a.hdr.ord = false ∧
      a.hdr.opcode ∉ [0x01#8, 0x04, 0x0D, 0x0F, 0x41, 0x42] ∧
      s.canAnswer a.port 1 = true ∧
      ¬ (vc = 1)) ∧
    (∃ (a : Arrival) (vc : BitVec 2) (s : State),
      s.unobserved = true ∧
      s.takes a vc.toNat = true ∧
      s.alone = true ∧
      opcodeKnown a vc.toNat = false ∧
      a.hdr.ord = false ∧
      a.hdr.opcode ∉ [0x01#8, 0x04, 0x0D, 0x0F, 0x41, 0x42] ∧
      s.canAnswer a.port 1 = true ∧
      ¬ (vc = 1)) ∧
    (∃ (a : Arrival) (vc : BitVec 2) (s : State),
      s.unobserved = true ∧
      s.takes a vc.toNat = true ∧
      s.alone = true ∧
      opcodeKnown a vc.toNat = false ∧
      a.hdr.ord = false ∧
      a.hdr.opcode ∉ [0x01#8, 0x04, 0x0D, 0x0F, 0x41, 0x42] ∧
      s.canAnswer a.port 1 = true ∧
      ¬ (vc = 1)) ∧
    (∃ (i : Instr) (s : State),
      ∃ a ∈ msgOf i,
      channelOf i = some 0 ∧
      let m := asSent i
      let n := if m.hdr.opcode = 0x01 then 2 else 1
      s.unobserved = true ∧
      s.stopped = true ∧
      s.inService a.port = true ∧
      flitsOf m.data ≤ (s.port a.port).free.getD (poolOf m 0) 0 ∧
      (s.port a.port).holds = [] ∧
      s.alone = true ∧
      m.hdr.ord = false ∧
      m.hdr.opcode ≠ 0x41 ∧
      m.hdr.opcode ≠ 0x42 ∧
      s.canAnswer a.port n = true ∧
      malformed m = false) ∧
    (∃ (i : Instr) (s : State),
      ∃ a ∈ msgOf i,
      channelOf i = some 0 ∧
      let m := asSent i
      let n := if m.hdr.opcode = 0x01 then 2 else 1
      s.unobserved = true ∧
      s.stopped = true ∧
      s.inService a.port = true ∧
      flitsOf m.data ≤ (s.port a.port).free.getD (poolOf m 0) 0 ∧
      (s.port a.port).holds = [] ∧
      s.alone = true ∧
      m.hdr.ord = false ∧
      m.hdr.opcode ≠ 0x41 ∧
      m.hdr.opcode ≠ 0x42 ∧
      s.canAnswer a.port n = true ∧
      malformed m = true) :=
  ⟨⟨unk, 1, q1, by decide +kernel⟩,
   ⟨unk, 0, q1, by decide +kernel⟩,
   ⟨unk, 2, q1, by decide +kernel⟩,
   ⟨unk, 3, q1, by decide +kernel⟩,
   ⟨(.rd (rdA 0 1)), sW1, by decide +kernel⟩,
   ⟨(.tlyAdd unk), sW1, by decide +kernel⟩⟩

end UnknownDamagedAndStopped

namespace AcceptBitsGateNoticesAndMgmt

def mg (p : Nat) (w3 : W64) : Arrival := { port := p, hdr := { hdr0 with w3 := w3 } }
def aW1 : Arrival := mg 0 0
def aW2 : Arrival := mg 1 0x25
def iW3 : Instr := .mgmtWrite { mg 1 7 with hdr := ordH 3 true }
def aW4 : Arrival := { mg 1 7 with hdr := ordH 3 true }

theorem met :
    (∃ (i : Instr) (a : Arrival) (s : State),
      i ∈ [Instr.ownerLost a, .mgmtRead a, .mgmtWrite a] ∧
      let m := asSent i
      let lost := m.hdr.opcode = 0x0E
      s.unobserved = true ∧
      s.takes m 0 = true ∧
      s.alone = true ∧
      (lost → s.atTurn m = true) ∧
      s.canAnswer m.port 1 = true ∧
      (lost → m.hdr.csg = true → malformed m = false → s.clsEnabled (clsOf m) = true → s.csgStatus m = stOk) ∧
      bit (s.portCfg m.port) (if lost then 1 else 2) = false) ∧
    (∃ (i : Instr) (a : Arrival) (s : State),
      i ∈ [Instr.ownerLost a, .mgmtRead a, .mgmtWrite a] ∧
      let m := asSent i
      let lost := m.hdr.opcode = 0x0E
      s.unobserved = true ∧
      s.takes m 0 = true ∧
      s.alone = true ∧
      (lost → s.atTurn m = true) ∧
      s.canAnswer m.port 1 = true ∧
      (lost → m.hdr.csg = true → malformed m = false → s.clsEnabled (clsOf m) = true → s.csgStatus m = stOk) ∧
      bit (s.portCfg m.port) (if lost then 1 else 2) = false) ∧
    (∃ (i : Instr) (a : Arrival) (s : State),
      i ∈ [Instr.ownerLost a, .mgmtRead a, .mgmtWrite a] ∧
      let m := asSent i
      let lost := m.hdr.opcode = 0x0E
      s.unobserved = true ∧
      s.takes m 0 = true ∧
      s.alone = true ∧
      (lost → s.atTurn m = true) ∧
      s.canAnswer m.port 1 = true ∧
      (lost → m.hdr.csg = true → malformed m = false → s.clsEnabled (clsOf m) = true → s.csgStatus m = stOk) ∧
      bit (s.portCfg m.port) (if lost then 1 else 2) = false) :=
  ⟨⟨(.ownerLost (mg 0 0)), aW1, q1, by decide +kernel⟩,
   ⟨(.mgmtRead (mg 1 0x25)), aW2, q1, by decide +kernel⟩,
   ⟨iW3, aW4, q1, by decide +kernel⟩⟩

end AcceptBitsGateNoticesAndMgmt

namespace WriteChecksInOrder

def sW1 : State := stop qs

theorem met_1 :
    (∃ (k : Sess) (s : State) (i : Nat) (_sub : Nat) (_bs : List Byte),
      s.reaches k = true ∧
      (s.session k).isSome = true ∧
      sessClerk k = false ∧
      i ≠ 0x5F00 ∧
      s.hasIndex i = false) ∧
    (∃ (k : Sess) (s : State) (i : Nat) (sub : Nat) (_bs : List Byte),
      s.reaches k = true ∧
      (s.session k).isSome = true ∧
      sessClerk k = false ∧
      i ≠ 0x5F00 ∧
      s.hasIndex i = true ∧
      s.objDef i sub = none) ∧
    (∃ (k : Sess) (s : State) (i : Nat) (sub : Nat) (_bs : List Byte),
      s.reaches k = true ∧
      (s.session k).isSome = true ∧
      sessClerk k = false ∧
      i ≠ 0x5F00 ∧
      ∃ r ∈ s.objDef i sub,
      let ro := r.acc = .ro ∨ r.acc = .cnst ∨ (i = 0x2600 ∧ sub = 2)
      ro) ∧
    (∃ (k : Sess) (s : State) (i : Nat) (sub : Nat) (_bs : List Byte),
      s.reaches k = true ∧
      (s.session k).isSome = true ∧
      sessClerk k = false ∧
      i ≠ 0x5F00 ∧
      ∃ r ∈ s.objDef i sub,
      let ro := r.acc = .ro ∨ r.acc = .cnst ∨ (i = 0x2600 ∧ sub = 2)
      let may := s.mayWrite (s.current k) r i sub = true
      ¬ ro ∧
      ¬ may) ∧
    (∃ (k : Sess) (s : State) (i : Nat) (sub : Nat) (bs : List Byte),
      s.reaches k = true ∧
      (s.session k).isSome = true ∧
      sessClerk k = false ∧
      i ≠ 0x5F00 ∧
      ∃ r ∈ s.objDef i sub,
      let ro := r.acc = .ro ∨ r.acc = .cnst ∨ (i = 0x2600 ∧ sub = 2)
      let may := s.mayWrite (s.current k) r i sub = true
      ¬ ro ∧
      may ∧
      bs.length ≠ r.size) ∧
    (∃ (k : Sess) (s : State) (i : Nat) (sub : Nat) (bs : List Byte),
      s.reaches k = true ∧
      (s.session k).isSome = true ∧
      sessClerk k = false ∧
      i ≠ 0x5F00 ∧
      ∃ r ∈ s.objDef i sub,
      let ro := r.acc = .ro ∨ r.acc = .cnst ∨ (i = 0x2600 ∧ sub = 2)
      let may := s.mayWrite (s.current k) r i sub = true
      ¬ ro ∧
      may ∧
      bs.length = r.size ∧
      r.admits (ofBytes bs) = false ∧
      ¬ (i = 0x2B00 ∧ sub = 5 ∧ 2 < ofBytes bs)) :=
  ⟨⟨.i3c, qs, 1, 0x2020, ([]), by decide +kernel⟩,
   ⟨.i3c, qs, 0x2020, 0x2020, ([]), by decide +kernel⟩,
   ⟨.i3c, qs, 0x2020, 2, ([]), by decide +kernel⟩,
   ⟨(.inband 0 5), qs, 0x2020, 1, ([]), by decide +kernel⟩,
   ⟨.i3c, qs, 0x2020, 1, ([]), by decide +kernel⟩,
   ⟨.i3c, qs, 0x2000, 2, ([3]), by decide +kernel⟩⟩

theorem met_2 :
    ∃ (k : Sess) (s : State) (i : Nat) (sub : Nat) (bs : List Byte),
      s.reaches k = true ∧
      (s.session k).isSome = true ∧
      sessClerk k = false ∧
      i ≠ 0x5F00 ∧
      ∃ r ∈ s.objDef i sub,
      let ro := r.acc = .ro ∨ r.acc = .cnst ∨ (i = 0x2600 ∧ sub = 2)
      let may := s.mayWrite (s.current k) r i sub = true
      ¬ ro ∧
      may ∧
      bs.length = r.size ∧
      r.admits (ofBytes bs) = true ∧
      s.stopped = true ∧
      stoppedWrite i sub = false :=
  ⟨.i3c, sW1, 0x2020, 1, ([1, 1]), by decide +kernel⟩

end WriteChecksInOrder

namespace PowerEnvelopeHasRange

theorem met :
    (∃ (k : Sess) (s : State) (v : Nat),
      s.accepts k 0x2020 1 v = true ∧
      300 ≤ v ∧
      v ≤ 640) ∧
    (∃ (k : Sess) (s : State) (v : Nat),
      s.accepts k 0x2020 1 v = true ∧
      (v < 300 ∨ 640 < v)) :=
  ⟨⟨.i3c, qs, 300, by decide +kernel⟩,
   ⟨.i3c, qs, 299, by decide +kernel⟩⟩

end PowerEnvelopeHasRange

namespace BlockNumberNeedsPortsDisabled

def sW1 : State := { qs with ports := State.reset.ports }

theorem met :
    (∃ (k : Sess) (s : State) (v : Nat),
      s.reaches k = true ∧
      (s.session k).isSome = true ∧
      sessClerk k = false ∧
      s.stopped = false ∧
      v < 4096 ∧
      1 ≤ (s.current k).priv ∧
      s.portsDisabled = true) ∧
    (∃ (k : Sess) (s : State) (v : Nat),
      s.reaches k = true ∧
      (s.session k).isSome = true ∧
      sessClerk k = false ∧
      s.stopped = false ∧
      v < 4096 ∧
      1 ≤ (s.current k).priv ∧
      s.portsDisabled = false) ∧
    (∃ (k : Sess) (s : State) (v : Nat),
      s.reaches k = true ∧
      (s.session k).isSome = true ∧
      sessClerk k = false ∧
      s.stopped = false ∧
      v < 4096 ∧
      (s.current k).priv < 1) :=
  ⟨⟨.i3c, sW1, 0, by decide +kernel⟩,
   ⟨.i3c, qs, 0, by decide +kernel⟩,
   ⟨(.inband 0 5), qs, 0, by decide +kernel⟩⟩

end BlockNumberNeedsPortsDisabled

namespace SettingsAndSelectionsTakeTheirValue

theorem met :
    (∃ (k : Sess) (s : State) (i : Nat) (sub : Nat) (v : Nat),
      ∃ r ∈ s.objDef i sub,
      s.accepts k i sub v = true ∧
      plainWrite i sub = true) ∧
    (∃ (k : Sess) (s : State) (i : Nat) (sub : Nat) (v : Nat),
      ∃ r ∈ s.objDef i sub,
      s.accepts k i sub v = true ∧
      r.sel = true) :=
  ⟨⟨.i3c, qs, 0x2090, 2, 2, by decide +kernel⟩,
   ⟨.i3c, qs, 0x2B00, 7, 2, by decide +kernel⟩⟩

end SettingsAndSelectionsTakeTheirValue

namespace GuardedSettingsKeepTheirRelations

theorem met :
    (∃ (k : Sess) (s : State) (b : Nat) (c : Nat) (n : Nat) (j : Nat) (i : Nat) (sub : Nat) (v : Nat) (code : Nat) (bad : Bool),
      b < s.size.bays ∧
      c < 64 ∧
      n < 1664 ∧
      j < 16 ∧
      (i, sub, bad, code) ∈ [ (0x2001, 0, s.boot.code != 0x10, 0x08000022), (0x2010, 1, s.boot.code != 0x10, 0x08000022), (0x2010, 2, s.boot.code != 0x10, 0x08000022), (0x2100 + b, 5, decide (s.obj (0x2100 + b) 4 ≤ v), 0x06090030), (0x2600 + c, 5, decide (v < s.staticPrio c), 0x06090030), (0x2600 + c, 0x0B, decide (s.obj (0x2600 + c) 0x0C < v) || decide (40960 < s.minSum c 0x0B v), 0x06090030), (0x2600 + c, 0x0C, decide (v < s.obj (0x2600 + c) 0x0B), 0x06090030), (0x2600 + c, 0x0D, decide (s.obj (0x2600 + c) 0x0E < v) || decide (3584 < s.minSum c 0x0D v), 0x06090030), (0x2600 + c, 0x0E, decide (v < s.obj (0x2600 + c) 0x0D), 0x06090030), (0x2D00, 3, decide (s.obj 0x2D00 4 ≤ v) || decide (v ≤ s.obj 0x2D00 5) || decide (s.obj 0x2D00 6 ≤ s.obj 0x2D00 5), 0x06090030), (0x2D00, 6, decide (v ≤ s.obj 0x2D00 5) || decide (s.obj 0x2D00 4 ≤ s.obj 0x2D00 3) || decide (s.obj 0x2D00 3 ≤ s.obj 0x2D00 5), 0x06090030), (0x3000 + n, 4, decide (s.obj (0x3000 + n) 5 < v), 0x06090030), (0x3000 + n, 5, decide (v < s.obj (0x3000 + n) 4), 0x06090030), (0x2E00, 2, s.obj 0x2E00 1 == 1, 0x08000022), (0x2E00, 3, s.obj 0x2E00 1 == 1, 0x08000022), (0x2E00, 4, s.boot.code != 0x10, 0x08000022), (0x3810, j + 1, s.test.jostleAt.isSome || v % 2 ^ 27 != 0, if s.test.jostleAt.isSome then 0x08000022 else 0x06090030)] ∧
      ∃ r ∈ s.objDef i sub,
      s.accepts k i sub v = true ∧
      bad = true) ∧
    (∃ (k : Sess) (s : State) (b : Nat) (c : Nat) (n : Nat) (j : Nat) (i : Nat) (sub : Nat) (v : Nat) (code : Nat) (bad : Bool),
      b < s.size.bays ∧
      c < 64 ∧
      n < 1664 ∧
      j < 16 ∧
      (i, sub, bad, code) ∈ [ (0x2001, 0, s.boot.code != 0x10, 0x08000022), (0x2010, 1, s.boot.code != 0x10, 0x08000022), (0x2010, 2, s.boot.code != 0x10, 0x08000022), (0x2100 + b, 5, decide (s.obj (0x2100 + b) 4 ≤ v), 0x06090030), (0x2600 + c, 5, decide (v < s.staticPrio c), 0x06090030), (0x2600 + c, 0x0B, decide (s.obj (0x2600 + c) 0x0C < v) || decide (40960 < s.minSum c 0x0B v), 0x06090030), (0x2600 + c, 0x0C, decide (v < s.obj (0x2600 + c) 0x0B), 0x06090030), (0x2600 + c, 0x0D, decide (s.obj (0x2600 + c) 0x0E < v) || decide (3584 < s.minSum c 0x0D v), 0x06090030), (0x2600 + c, 0x0E, decide (v < s.obj (0x2600 + c) 0x0D), 0x06090030), (0x2D00, 3, decide (s.obj 0x2D00 4 ≤ v) || decide (v ≤ s.obj 0x2D00 5) || decide (s.obj 0x2D00 6 ≤ s.obj 0x2D00 5), 0x06090030), (0x2D00, 6, decide (v ≤ s.obj 0x2D00 5) || decide (s.obj 0x2D00 4 ≤ s.obj 0x2D00 3) || decide (s.obj 0x2D00 3 ≤ s.obj 0x2D00 5), 0x06090030), (0x3000 + n, 4, decide (s.obj (0x3000 + n) 5 < v), 0x06090030), (0x3000 + n, 5, decide (v < s.obj (0x3000 + n) 4), 0x06090030), (0x2E00, 2, s.obj 0x2E00 1 == 1, 0x08000022), (0x2E00, 3, s.obj 0x2E00 1 == 1, 0x08000022), (0x2E00, 4, s.boot.code != 0x10, 0x08000022), (0x3810, j + 1, s.test.jostleAt.isSome || v % 2 ^ 27 != 0, if s.test.jostleAt.isSome then 0x08000022 else 0x06090030)] ∧
      ∃ r ∈ s.objDef i sub,
      s.accepts k i sub v = true ∧
      bad = false) :=
  ⟨⟨.i3c, qs, 0, 0, 0, 0, 0x2D00, 3, 3, 0x06090030, true, by decide +kernel⟩,
   ⟨.i3c, qs, 0, 0, 0, 0, 0x2D00, 3, 500, 0x06090030, false, by decide +kernel⟩⟩

end GuardedSettingsKeepTheirRelations

namespace StageAndKeysOfACommit

def stg (s : State) (l : List (Nat × Entry)) : State := { s with shelf := { s.shelf with stage := l } }
def sA := stg (selAll qs [(0x2400,9,0)]) [(0, pent)]
def sB := stg qs [(0, { pent with e7 := 5 })]
def sC : State := (({ sA with shelf := { sA.shelf with commit := some { changes := [(0, pent)], validAt := 5000 } } } : State).setObj 0x2400 3 2).setObj 0x2400 6 77
def modC (f : Commit → Commit) (s : State) : State := { s with shelf := { s.shelf with commit := s.shelf.commit.map f } }
def key0 : Nat := 77
def sD := run sC [.commitKeyFirst .i3c key0]
def sE : State := (modC (fun c => { c with first := some true }) { sD with sessions := sD.sessions ++ [{ key := .clerk, priv := 0 }] } |>.setObj 0x2090 2 0)
def sW1 : State := ({ sE with boot := { sE.boot with fwVer := some 3 } })
def sW2 : State := modC (fun c => { c with drain := some (5000, []) }) sD

theorem met_1 :
    (∃ (k : Sess) (s : State) (_key : Nat),
      s.accepts k 0x2400 2 1 = true ∧
      s.draining = false) ∧
    (∃ (k : Sess), ∃ (s : State), ∃ (_key : Nat), ∃ i, ∃ why,
      s.accepts k 0x2400 2 2 = true ∧
      s.draining = false ∧
      s.validateStage = .inl (i, why)) ∧
    (∃ (k : Sess), ∃ (s : State), ∃ (_key : Nat), ∃ copy,
      s.accepts k 0x2400 2 2 = true ∧
      s.draining = false ∧
      s.validateStage = .inr copy) ∧
    (∃ (k : Sess), ∃ (s : State), ∃ (key : Nat), ∃ copy,
      s.accepts k 0x2400 7 key = true ∧
      ∃ c ∈ s.shelf.commit,
      s.obj 0x2400 3 = 2 ∧
      key = s.obj 0x2400 6 ∧
      s.validateStage = .inr copy) ∧
    (∃ (k : Sess) (s : State) (key : Nat),
      s.accepts k 0x2400 7 key = true ∧
      ∃ c ∈ s.shelf.commit,
      s.obj 0x2400 3 = 2 ∧
      key ≠ s.obj 0x2400 6 ∧
      s.ops = []) ∧
    (∃ (k : Sess) (s : State) (key : Nat),
      s.accepts k 0x2400 7 key = true ∧
      (s.shelf.commit = none ∨ s.obj 0x2400 3 ≠ 2)) :=
  ⟨⟨.clerk, sW1, key0, by decide +kernel⟩,
   ⟨.i3c, sB, key0, (0), (1), by decide +kernel⟩,
   ⟨.clerk, sW1, key0, ([(0, { e0 := 0x40001fe000000001#64, e1 := 0xffffffffffffffff#64, e2 := 0x0000000000000010#64, e3 := 0x0000000000000000#64, e4 := 0x0000000000000000#64, e5 := 0x0000000000000000#64, e6 := 0x0000000000000000#64, e7 := 0x0000000000000000#64 })]), by decide +kernel⟩,
   ⟨.i3c, sC, key0, ([(0, { e0 := 0x40001fe000000001#64, e1 := 0xffffffffffffffff#64, e2 := 0x0000000000000010#64, e3 := 0x0000000000000000#64, e4 := 0x0000000000000000#64, e5 := 0x0000000000000000#64, e6 := 0x0000000000000000#64, e7 := 0x0000000000000000#64 })]), by decide +kernel⟩,
   ⟨.i3c, sC, 0, by decide +kernel⟩,
   ⟨.clerk, sW1, key0, by decide +kernel⟩⟩

theorem met_2 :
    (∃ (k : Sess) (s : State) (key : Nat),
      s.accepts k 0x2400 8 key = true ∧
      ∃ c ∈ s.shelf.commit,
      c.drain = none ∧
      s.obj 0x2400 3 = 4 ∧
      key = s.obj 0x2400 6 ∧
      ¬ (sessClerk k = true ∧ c.first = some true)) ∧
    (∃ (k : Sess) (s : State) (key : Nat),
      s.accepts k 0x2400 8 key = true ∧
      ∃ c ∈ s.shelf.commit,
      c.drain ≠ none ∧
      s.obj 0x2400 3 = 4 ∧
      key = s.obj 0x2400 6) ∧
    (∃ (k : Sess) (s : State) (key : Nat),
      s.accepts k 0x2400 8 key = true ∧
      ∃ c ∈ s.shelf.commit,
      c.drain = none ∧
      s.obj 0x2400 3 = 4 ∧
      key = s.obj 0x2400 6 ∧
      sessClerk k = true ∧
      c.first = some true ∧
      s.ops = [] ∧
      s.silent = true ∧
      s.determinism = false) ∧
    (∃ (k : Sess) (s : State) (key : Nat),
      s.accepts k 0x2400 8 key = true ∧
      ∃ c ∈ s.shelf.commit,
      s.obj 0x2400 3 = 4 ∧
      key ≠ s.obj 0x2400 6 ∧
      s.ops = []) ∧
    (∃ (k : Sess) (s : State) (key : Nat),
      s.accepts k 0x2400 8 key = true ∧
      (s.shelf.commit = none ∨ s.obj 0x2400 3 ≠ 4)) :=
  ⟨⟨.i3c, sE, key0, by decide +kernel⟩,
   ⟨.i3c, sW2, key0, by decide +kernel⟩,
   ⟨.clerk, sW1, key0, by decide +kernel⟩,
   ⟨.clerk, sW1, 0, by decide +kernel⟩,
   ⟨.i3c, qs, key0, by decide +kernel⟩⟩

end StageAndKeysOfACommit

namespace TallyAccessesActOnTheSelected

def tl (t : Tally) (s : State := qs) : State := selAll { s with tal := { s.tal with tallies := [(3, { value := 8, state := 1 }), (7, t)] } } [(0x2800, 1, 7)]
def sW1 : State := tl { value := 4, state := 1, owner := 3 }

theorem met_1 :
    (∃ (k : Sess) (s : State) (v : Nat),
      let n := (s.current k).get 0x2800 1
      let T := s.tally n
      s.accepts k 0x2800 3 v = true ∧
      T.state ≠ 0 ∧
      T.use_ ≠ 1 ∧
      s.tallyWaiters n = [] ∧
      (T.wrap = true ∨ v ≤ T.limit.toNat)) ∧
    (∃ (k : Sess) (s : State) (v : Nat),
      let n := (s.current k).get 0x2800 1
      let T := s.tally n
      s.accepts k 0x2800 3 v = true ∧
      T.state = 0) ∧
    (∃ (k : Sess) (s : State) (_v : Nat),
      let n := (s.current k).get 0x2800 1
      s.accepts k 0x2800 4 1 = true ∧
      (∀ w ∈ s.tal.waiters, w.tally ≠ n)) ∧
    (∃ (k : Sess) (s : State) (v : Nat),
      let n := (s.current k).get 0x2800 1
      let T := s.tally n
      s.accepts k 0x2800 5 v = true ∧
      T.state = 0) ∧
    (∃ (k : Sess) (s : State) (v : Nat),
      let n := (s.current k).get 0x2800 1
      let T := s.tally n
      s.accepts k 0x2800 5 v = true ∧
      T.state ≠ 0) ∧
    (∃ (k : Sess) (s : State) (v : Nat),
      let n := (s.current k).get 0x2800 1
      let T := s.tally n
      s.accepts k 0x2800 0x0E v = true ∧
      T.state ≠ 0 ∧
      s.tallyWaiters n = [] ∧
      (T.use_ = 1 → T.value = 0 ∧ T.shadow = 0 ∧ T.releasing = false ∧ v ≠ 0)) :=
  ⟨⟨.i3c, sW1, 0, by decide +kernel⟩,
   ⟨.i3c, qs, 0, by decide +kernel⟩,
   ⟨.i3c, qs, 0, by decide +kernel⟩,
   ⟨.i3c, qs, 0, by decide +kernel⟩,
   ⟨.i3c, sW1, 0, by decide +kernel⟩,
   ⟨.i3c, sW1, 0, by decide +kernel⟩⟩

theorem met_2 :
    (∃ (k : Sess) (s : State) (v : Nat),
      let n := (s.current k).get 0x2800 1
      let T := s.tally n
      s.accepts k 0x2800 0x0E v = true ∧
      T.state = 0) ∧
    (∃ (k : Sess) (s : State) (v : Nat),
      let n := (s.current k).get 0x2800 1
      let T := s.tally n
      s.accepts k 0x2800 0x0F v = true ∧
      T.state ≠ 0 ∧
      s.tallyWaiters n = []) ∧
    (∃ (k : Sess) (s : State) (v : Nat),
      let n := (s.current k).get 0x2800 1
      let T := s.tally n
      s.accepts k 0x2800 0x0F v = true ∧
      T.state = 0) :=
  ⟨⟨.i3c, qs, 0, by decide +kernel⟩,
   ⟨.i3c, sW1, 0, by decide +kernel⟩,
   ⟨.i3c, qs, 0, by decide +kernel⟩⟩

end TallyAccessesActOnTheSelected

namespace ResetProceedAndRejoin

def sW1 : State := { qs with boot := { qs.boot with code := 0x10 } }
def sW2 : State := { qs with boot := { qs.boot with code := 0x12 } }
def sW3 : State := { qs with twins := { qs.twins with state := 1 } }

theorem met :
    (∃ (k : Sess) (s : State),
      s.accepts k 0x2000 2 2 = true ∧
      s.waitsOn k = false ∧
      s.twins.disputed = false) ∧
    (∃ (k : Sess) (s : State),
      s.accepts k 0x2000 2 1 = true ∧
      s.boot.code = 0x10 ∧
      s.boot.testen = false) ∧
    (∃ (k : Sess) (s : State),
      s.accepts k 0x2000 2 1 = true ∧
      s.boot.code = 0x12 ∧
      s.shelf.load = [] ∧
      s.shelf.entries = []) ∧
    (∃ (k : Sess) (s : State),
      s.accepts k 0x2000 2 1 = true ∧
      s.boot.code ≠ 0x12 ∧
      (s.boot.code ≠ 0x10 ∨ s.boot.testen = true)) ∧
    (∃ (k : Sess) (s : State),
      s.accepts k 0x2D00 0x15 1 = true ∧
      let ok := (s.twins.state = 1 ∨ s.twins.state = 2) ∧ s.twins.rejoin = 0 ∧ s.twins.fails < 3
      ok) ∧
    (∃ (k : Sess) (s : State),
      s.accepts k 0x2D00 0x15 1 = true ∧
      let ok := (s.twins.state = 1 ∨ s.twins.state = 2) ∧ s.twins.rejoin = 0 ∧ s.twins.fails < 3
      ¬ ok) :=
  ⟨⟨.i3c, qs, by decide +kernel⟩,
   ⟨.i3c, sW1, by decide +kernel⟩,
   ⟨.i3c, sW2, by decide +kernel⟩,
   ⟨.i3c, qs, by decide +kernel⟩,
   ⟨.i3c, sW3, by decide +kernel⟩,
   ⟨.i3c, qs, by decide +kernel⟩⟩

end ResetProceedAndRejoin

namespace TrainingAccesses

def sel8 (s : State) : State := selAll s [(0x2B00, 6, 3), (0x2B00, 7, 5), (0x2B00, 8, 2), (0x2C10, 1, 3), (0x2C10, 2, 5)]
def dir0 : SweepDir := { dly := List.replicate 5 64, dsk := List.replicate 36 3, wid := List.replicate 5 40, closed := [] }
def recA : Nat := (runRecord 7 2 2 20 dir0 dir0).toNat
def goodRec : List Byte := toBytes 64 recA
def sW1 : State := (sel8 qs).modBay 3 fun y => { y with train := { y.train with requested := [5] } }
def sW2 : State := sel8 qs
def sW3 : State := (sel8 qs).setObj 0x2001 0 1

theorem met_1 :
    (∃ (k : Sess) (s : State) (_bs : List Byte) (_c : Nat) (_point : Nat),
      s.Inv ∧
      let b := (s.current k).get 0x2B00 6
      let pc := (s.current k).get 0x2B00 7
      s.accepts k 0x2B00 0x0B 1 = true ∧
      let idle := (s.bay b).train.requested.contains pc = false ∧ (∀ r ∈ (s.bay b).train.runs, r.pc ≠ pc)
      s.pcInService b pc = true ∧
      idle) ∧
    (∃ (k : Sess) (s : State) (_bs : List Byte) (_c : Nat) (_point : Nat),
      s.Inv ∧
      let b := (s.current k).get 0x2B00 6
      let pc := (s.current k).get 0x2B00 7
      s.accepts k 0x2B00 0x0B 1 = true ∧
      let idle := (s.bay b).train.requested.contains pc = false ∧ (∀ r ∈ (s.bay b).train.runs, r.pc ≠ pc)
      (s.pcInService b pc = false ∨ ¬ idle)) ∧
    (∃ (k : Sess) (s : State) (bs : List Byte) (_c : Nat) (_point : Nat),
      s.Inv ∧
      let b := (s.current k).get 0x2B00 6
      let pc := (s.current k).get 0x2B00 7
      let set := (s.current k).get 0x2B00 8
      bs.length = 64 ∧
      s.accepts k 0x2B00 9 (ofBytes bs) = true ∧
      s.calOk b pc set (ofBytes bs) = true) ∧
    (∃ (k : Sess) (s : State) (bs : List Byte) (_c : Nat) (_point : Nat),
      s.Inv ∧
      let b := (s.current k).get 0x2B00 6
      let pc := (s.current k).get 0x2B00 7
      let set := (s.current k).get 0x2B00 8
      bs.length = 64 ∧
      s.accepts k 0x2B00 9 (ofBytes bs) = true ∧
      s.calOk b pc set (ofBytes bs) = false) ∧
    (∃ (k : Sess) (s : State) (bs : List Byte) (_c : Nat) (_point : Nat),
      s.Inv ∧
      bs.length = 2 ∧
      s.accepts k 0x2C10 3 (ofBytes bs) = true ∧
      let ok := ∀ x ∈ bs, x.toNat ≤ 35 ∨ x.toNat = 0xFF
      ok) ∧
    (∃ (k : Sess) (s : State) (bs : List Byte) (_c : Nat) (_point : Nat),
      s.Inv ∧
      bs.length = 2 ∧
      s.accepts k 0x2C10 3 (ofBytes bs) = true ∧
      let ok := ∀ x ∈ bs, x.toNat ≤ 35 ∨ x.toNat = 0xFF
      ¬ ok) :=
  ⟨⟨.i3c, qs, goodRec, 0, 0, by decide +kernel⟩,
   ⟨.i3c, sW1, goodRec, 0, 0, by decide +kernel⟩,
   ⟨.i3c, sW2, goodRec, 0, 0, by decide +kernel⟩,
   ⟨.i3c, qs, goodRec, 0, 0, by decide +kernel⟩,
   ⟨.i3c, qs, ([1, 35]), 0, 0, by decide +kernel⟩,
   ⟨.i3c, qs, ([1, 36]), 0, 0, by decide +kernel⟩⟩

theorem met_2 :
    (∃ (k : Sess) (s : State) (_bs : List Byte) (c : Nat) (point : Nat),
      s.Inv ∧
      c < s.size.bays ∧
      s.accepts k (0x2100 + c) 0x0C point = true ∧
      s.determinism = true ∧
      point ≠ s.pointInUse c) ∧
    (∃ (k : Sess) (s : State) (_bs : List Byte) (c : Nat) (point : Nat),
      s.Inv ∧
      c < s.size.bays ∧
      s.accepts k (0x2100 + c) 0x0C point = true ∧
      let y := (s.bay c).sched
      s.determinism = false ∧
      y.moving = false ∧
      point ≠ y.point ∧
      2 ≤ (s.bay c).repair.state) ∧
    (∃ (k : Sess) (s : State) (_bs : List Byte) (c : Nat) (point : Nat),
      s.Inv ∧
      c < s.size.bays ∧
      s.accepts k (0x2100 + c) 0x0C point = true ∧
      let y := (s.bay c).sched
      s.determinism = false ∧
      y.moving = false ∧
      (point = y.point ∨ (s.bay c).repair.state < 2)) ∧
    (∃ (k : Sess) (s : State) (_bs : List Byte) (_c : Nat) (_point : Nat),
      s.Inv ∧
      s.accepts k 0x2A00 6 1 = true) :=
  ⟨⟨.i3c, sW3, goodRec, 0, 1, by decide +kernel⟩,
   ⟨.i3c, qs, goodRec, 0, 1, by decide +kernel⟩,
   ⟨.i3c, qs, goodRec, 0, 0, by decide +kernel⟩,
   ⟨.i3c, qs, goodRec, 0, 0, by decide +kernel⟩⟩

end TrainingAccesses

namespace AvailabilityAccesses

def qi : State := { qs with sessions := sessions0.map fun x => { x with priv := 2 } }
def repGood : StepReport := {}
def sW1 : State := qi.modBay 3 fun y => { y with repair := { y.repair with fence := 1, withdrawn := BitVec.allOnes 64 } }
def sW2 : State := qi.modBay 3 fun y => { y with repair := { y.repair with declared := [4999, 4998, 4997, 4996, 4000] } }
def sW3 : State := qi.modBay 3 fun y => { y with repair := { y.repair with fence := 1 }, therm := { y.therm with thermal := 5 } }
def sW4 : State := qi.modBay 3 fun y => { y with repair := { y.repair with fence := 2, state := 1 } }
def sW5 : State := qi.modBay 3 fun y => { y with repair := { y.repair with fence := 2, pcsOut := BitVec.allOnes 64 } }

theorem met_1 :
    (∃ (k : Sess) (s : State) (b : Nat) (pc : Nat) (_v : Nat) (_rep : StepReport),
      s.silent = true ∧
      s.guarSum = 0 ∧
      s.frank.gforce = [] ∧
      pc < 64 ∧
      s.accepts k 0x2D00 0x0C (64 * b + pc) = true ∧
      s.declareRefused b pc = true ∧
      (∀ c, (s.bay c).repair.withdrawing = 0)) ∧
    (∃ (k : Sess) (s : State) (b : Nat) (pc : Nat) (_v : Nat) (_rep : StepReport),
      s.silent = true ∧
      s.guarSum = 0 ∧
      s.frank.gforce = [] ∧
      pc < 64 ∧
      s.accepts k 0x2D00 0x0C (64 * b + pc) = true ∧
      s.declareRefused b pc = false ∧
      s.allowance b ≤ s.declarations b ∧
      (∀ c, (s.bay c).repair.withdrawing = 0)) ∧
    (∃ (k : Sess) (s : State) (b : Nat) (pc : Nat) (_v : Nat) (_rep : StepReport),
      s.silent = true ∧
      s.guarSum = 0 ∧
      s.frank.gforce = [] ∧
      pc < 64 ∧
      s.accepts k 0x2D00 0x0C (64 * b + pc) = true ∧
      s.declareRefused b pc = false ∧
      s.declarations b < s.allowance b ∧
      b < s.bays.length ∧
      (∀ c, (s.bay c).repair.withdrawing = 0)) ∧
    (∃ (k : Sess) (s : State) (b : Nat) (pc : Nat) (_v : Nat) (_rep : StepReport),
      s.silent = true ∧
      s.guarSum = 0 ∧
      s.frank.gforce = [] ∧
      pc < 64 ∧
      s.accepts k 0x2D00 0x0A b = true ∧
      s.idle = true ∧
      (∀ c ∈ s.mem.carrel, c.dirty = 0) ∧
      s.fenced b = true) ∧
    (∃ (k : Sess) (s : State) (b : Nat) (pc : Nat) (_v : Nat) (_rep : StepReport),
      s.silent = true ∧
      s.guarSum = 0 ∧
      s.frank.gforce = [] ∧
      pc < 64 ∧
      s.accepts k 0x2D00 0x0A b = true ∧
      s.idle = true ∧
      (∀ c ∈ s.mem.carrel, c.dirty = 0) ∧
      s.fenced b = false ∧
      (∃ y ∈ s.bays, y.repair.fence = 1)) ∧
    (∃ (k : Sess) (s : State) (b : Nat) (pc : Nat) (_v : Nat) (_rep : StepReport),
      s.silent = true ∧
      s.guarSum = 0 ∧
      s.frank.gforce = [] ∧
      pc < 64 ∧
      s.accepts k 0x2D00 0x0A b = true ∧
      s.idle = true ∧
      (∀ c ∈ s.mem.carrel, c.dirty = 0) ∧
      s.fenced b = false ∧
      (∀ y ∈ s.bays, y.repair.fence ≠ 1)) :=
  ⟨⟨.i3c, sW1, 3, 0, 0, repGood, by decide +kernel, by decide +kernel, by decide +kernel, by decide +kernel, by decide +kernel, by decide +kernel, noneWithdrawing _ (by decide +kernel)⟩,
   ⟨.i3c, sW2, 3, 0, 0, repGood, by decide +kernel, by decide +kernel, by decide +kernel, by decide +kernel, by decide +kernel, by decide +kernel, by decide +kernel, noneWithdrawing _ (by decide +kernel)⟩,
   ⟨.i3c, qi, 0, 0, 0, repGood, by decide +kernel, by decide +kernel, by decide +kernel, by decide +kernel, by decide +kernel, by decide +kernel, by decide +kernel, by decide +kernel, noneWithdrawing _ (by decide +kernel)⟩,
   ⟨.i3c, sW1, 3, 0, 0, repGood, by decide +kernel⟩,
   ⟨.i3c, sW1, 0, 0, 0, repGood, by decide +kernel⟩,
   ⟨.i3c, qi, 0, 0, 0, repGood, by decide +kernel⟩⟩

theorem met_2 :
    (∃ (k : Sess) (s : State) (b : Nat) (pc : Nat) (_v : Nat) (_rep : StepReport),
      s.silent = true ∧
      s.guarSum = 0 ∧
      s.frank.gforce = [] ∧
      pc < 64 ∧
      s.accepts k 0x2D00 0x0B b = true ∧
      s.determinism = false ∧
      let cause := (s.bay b).repair.fence
      cause ≠ 1 ∧
      cause ≠ 2) ∧
    (∃ (k : Sess) (s : State) (b : Nat) (pc : Nat) (_v : Nat) (_rep : StepReport),
      s.silent = true ∧
      s.guarSum = 0 ∧
      s.frank.gforce = [] ∧
      pc < 64 ∧
      s.accepts k 0x2D00 0x0B b = true ∧
      s.determinism = false ∧
      let cause := (s.bay b).repair.fence
      (cause = 1 ∨ cause = 2) ∧
      (s.bay b).therm.live = false) ∧
    (∃ (k : Sess) (s : State) (b : Nat) (pc : Nat) (_v : Nat) (_rep : StepReport),
      s.silent = true ∧
      s.guarSum = 0 ∧
      s.frank.gforce = [] ∧
      pc < 64 ∧
      s.accepts k 0x2D00 0x0B b = true ∧
      s.determinism = false ∧
      let cause := (s.bay b).repair.fence
      (cause = 1 ∨ cause = 2) ∧
      (s.bay b).therm.live = true ∧
      (s.bay b).repair.state < 2) ∧
    (∃ (k : Sess) (s : State) (b : Nat) (pc : Nat) (_v : Nat) (rep : StepReport),
      s.silent = true ∧
      s.guarSum = 0 ∧
      s.frank.gforce = [] ∧
      pc < 64 ∧
      let u := s.seated k
      s.accepts k 0x2D00 0x0B b = true ∧
      s.determinism = false ∧
      let cause := (s.bay b).repair.fence
      (cause = 1 ∨ cause = 2) ∧
      (s.bay b).therm.live = true ∧
      2 ≤ (s.bay b).repair.state ∧
      (u.sweepBay b rep false).2 = true) ∧
    (∃ (k : Sess) (s : State) (b : Nat) (pc : Nat) (_v : Nat) (rep : StepReport),
      s.silent = true ∧
      s.guarSum = 0 ∧
      s.frank.gforce = [] ∧
      pc < 64 ∧
      let u := s.seated k
      s.accepts k 0x2D00 0x0B b = true ∧
      s.determinism = false ∧
      let cause := (s.bay b).repair.fence
      (cause = 1 ∨ cause = 2) ∧
      (s.bay b).therm.live = true ∧
      2 ≤ (s.bay b).repair.state ∧
      (u.sweepBay b rep false).2 = false) ∧
    (∃ (k : Sess) (s : State) (_b : Nat) (pc : Nat) (v : Nat) (_rep : StepReport),
      s.silent = true ∧
      s.guarSum = 0 ∧
      s.frank.gforce = [] ∧
      pc < 64 ∧
      s.accepts k 0x2D00 0x13 v = true ∧
      v = 1 ∧
      s.portsDisabled = false) :=
  ⟨⟨.i3c, qi, 0, 0, 0, repGood, by decide +kernel⟩,
   ⟨.i3c, sW3, 3, 0, 0, repGood, by decide +kernel⟩,
   ⟨.i3c, sW4, 3, 0, 0, repGood, by decide +kernel⟩,
   ⟨.i3c, sW1, 3, 0, 0, repGood, by decide +kernel⟩,
   ⟨.i3c, sW5, 3, 0, 0, repGood, by decide +kernel⟩,
   ⟨.i3c, qi, 0, 0, 1, repGood, by decide +kernel⟩⟩

theorem met_3 :
    ∃ (k : Sess) (s : State) (_b : Nat) (pc : Nat) (v : Nat) (_rep : StepReport),
      s.silent = true ∧
      s.guarSum = 0 ∧
      s.frank.gforce = [] ∧
      pc < 64 ∧
      s.accepts k 0x2D00 0x13 v = true ∧
      (v ≠ 1 ∨ s.portsDisabled = true) :=
  ⟨.i3c, qi, 0, 0, 0, repGood, by decide +kernel⟩

end AvailabilityAccesses

namespace RunReplayAndPauseAccesses

def qi : State := { qs with sessions := sessions0.map fun x => { x with priv := 2 } }
def sW1 : State := { qi.setObj 0x2E00 0x0E 1 with day := { qi.day with pausedAt := some 100 } }
def sW2 : State := { qi.setObj 0x2E00 0x0E 2 with day := { qi.day with pausedAt := some 100 }, cons := [{ cid := 5, state := .active, cgen := 1, msg := { port := 0, hdr := {} }, slip := {}, bytes := [], ctns := 0, tiles := [{ idx := 4, bay := 3, openedAt := 7 }] }] }

theorem met_1 :
    (∃ (k : Sess) (s : State) (_v : Nat),
      s.accepts k 0x2E00 7 1 = true ∧
      s.obj 0x2E00 1 ≠ 1) ∧
    (∃ (k : Sess) (s : State) (v : Nat),
      s.accepts k 0x2E00 0x0A v = true ∧
      let no := s.day.loaded = [] ∨ bit s.day.loadedFlags 0 = true ∨ bit s.day.loadedFlags 2 = true
      v ≠ 0 ∧
      no) ∧
    (∃ (k : Sess) (s : State) (v : Nat),
      s.accepts k 0x2E00 0x0A v = true ∧
      let no := s.day.loaded = [] ∨ bit s.day.loadedFlags 0 = true ∨ bit s.day.loadedFlags 2 = true
      (v = 0 ∨ ¬ no)) ∧
    (∃ (k : Sess) (s : State) (_v : Nat),
      s.accepts k 0x2E00 0x0D 1 = true ∧
      s.pausing = false) ∧
    (∃ (k : Sess) (s : State) (_v : Nat),
      s.accepts k 0x2E00 0x0D 1 = true ∧
      s.pausing = true) ∧
    (∃ (k : Sess) (s : State) (_v : Nat),
      s.accepts k 0x2E00 0x0D 2 = true ∧
      s.obj 0x2E00 0x0E = 2 ∧
      (∀ e ∈ s.tal.tallies, ¬ (e.2.armed = true ∧ e.2.late = true))) :=
  ⟨⟨.i3c, qi, 0, by decide +kernel⟩,
   ⟨.i3c, qi, 1, by decide +kernel⟩,
   ⟨.i3c, qi, 0, by decide +kernel⟩,
   ⟨.i3c, qi, 0, by decide +kernel⟩,
   ⟨.i3c, sW1, 0, by decide +kernel⟩,
   ⟨.i3c, sW2, 0, by decide +kernel⟩⟩

theorem met_2 :
    (∃ (k : Sess) (s : State) (_v : Nat),
      s.accepts k 0x2E00 0x0D 2 = true ∧
      s.obj 0x2E00 0x0E ≠ 2) ∧
    (∃ (k : Sess) (s : State) (_v : Nat),
      s.accepts k 0x2E00 0x11 1 = true) :=
  ⟨⟨.i3c, qi, 0, by decide +kernel⟩,
   ⟨.i3c, qi, 0, by decide +kernel⟩⟩

end RunReplayAndPauseAccesses

namespace SessionsLoginsAndEvents

def qi : State := { qs with sessions := sessions0.map fun x => { x with priv := 1, chal := 77 } }
def lg : List Byte := (toBytes 1 1 ++ toBytes 1 0 ++ zeros 194)
def goodSig : Nat := 0x6b71d4f1b43759df9b366cb3deb07a0447af6f892972ba2b9db3c4944b3289383a35f539d676429870e0eb6622e01d43
def goodKey : Nat := 0xa8d54d5c5ac84276cbccbfed049c991482f7db69548205b8f52548279bd5494aa33fb3bd4c67ea645437ca1ecad19116b370229d6ab3c11578938894c536abf1cba7369c5fb240fc4fca47e77ed4f77c4bd270e36576218ef3b7a6224c51523a
def goodLogin : List Byte := toBytes 1 1 ++ zeros 99 ++ toBytesBe 48 goodSig ++ toBytesBe 48 goodSig
def qlog : State := { qs with sessions := sessions0.map fun x => { x with chal := 1 }, keys := [(Objects.key 0x1F01 1, goodKey)] }
def qev : State := ({ qi with sessions := qi.sessions.map fun x => { x with evWait := [(900, none), (1000, none)], lockTill := 700 }, events := { qi.events with queue := [{ eseq := 4, etime := 9, ecode := 0x30, ebay := 3, eaux := 1, earg := 7 }], next := 5 } } : State)
def sW1 : State := { qi with sessions := qi.sessions.map fun x => { x with lockTill := 60000 } }
def sW2 : State := { qi with sessions := qi.sessions.map fun x => { x with bad := 2, lockTill := 600 } }

theorem met_1 :
    (∃ (k : Sess) (s : State) (bs : List Byte),
      bs.length = 196 ∧
      s.accepts k 0x1F00 2 (ofBytes bs) = true ∧
      loginCoded bs = false) ∧
    (∃ (k : Sess) (s : State) (bs : List Byte),
      let x := s.current k
      bs.length = 196 ∧
      s.accepts k 0x1F00 2 (ofBytes bs) = true ∧
      loginCoded bs = true ∧
      s.now < x.lockTill) ∧
    (∃ (k : Sess) (s : State) (bs : List Byte),
      let x := s.current k
      let level := (bs.getD 0 0).toNat
      bs.length = 196 ∧
      s.accepts k 0x1F00 2 (ofBytes bs) = true ∧
      let ok := (s.loginKey bs).2 = true ∧ ecdsaValid (s.loginKey bs).1 ((bs.drop 100).take 96) (loginText x.chal level) = true
      loginCoded bs = true ∧
      x.lockTill ≤ s.now ∧
      ok) ∧
    (∃ (k : Sess) (s : State) (bs : List Byte),
      let x := s.current k
      let level := (bs.getD 0 0).toNat
      bs.length = 196 ∧
      s.accepts k 0x1F00 2 (ofBytes bs) = true ∧
      let ok := (s.loginKey bs).2 = true ∧ ecdsaValid (s.loginKey bs).1 ((bs.drop 100).take 96) (loginText x.chal level) = true
      loginCoded bs = true ∧
      x.lockTill ≤ s.now ∧
      ¬ ok ∧
      x.bad < 2) ∧
    (∃ (k : Sess) (s : State) (bs : List Byte),
      let x := s.current k
      let level := (bs.getD 0 0).toNat
      bs.length = 196 ∧
      s.accepts k 0x1F00 2 (ofBytes bs) = true ∧
      let ok := (s.loginKey bs).2 = true ∧ ecdsaValid (s.loginKey bs).1 ((bs.drop 100).take 96) (loginText x.chal level) = true
      loginCoded bs = true ∧
      x.lockTill ≤ s.now ∧
      ¬ ok ∧
      2 ≤ x.bad) ∧
    (∃ (k : Sess) (s : State) (_bs : List Byte),
      s.accepts k 0x1F00 4 1 = true) :=
  ⟨⟨.i3c, qi, (lg.set 1 77), by decide +kernel⟩,
   ⟨.i3c, sW1, lg, by decide +kernel⟩,
   ⟨.i3c, qlog, goodLogin, by decide +kernel⟩,
   ⟨.i3c, qi, lg, by decide +kernel⟩,
   ⟨.i3c, sW2, lg, by decide +kernel⟩,
   ⟨.i3c, qi, lg, by decide +kernel⟩⟩

theorem met_2 :
    (∃ (k : Sess) (s : State) (_bs : List Byte),
      ∃ z ∈ s.session k,
      s.setCounters = [] ∧
      z.lockTill ≠ 0) ∧
    (∃ (k : Sess), ∃ (s : State), ∃ (_bs : List Byte), ∃ d, ∃ ws,
      ∃ z ∈ s.session k,
      s.setCounters = [] ∧
      z.evWait = (d, none) :: ws ∧
      s.twins.disputed = false ∧
      s.waitsOn k = false) ∧
    (∃ (k : Sess) (s : State) (_bs : List Byte),
      let x := s.current k
      s.reaches k = true ∧
      (s.session k).isSome = true ∧
      (s.nextEvent x).isSome = true) ∧
    (∃ (k : Sess) (s : State) (_bs : List Byte),
      let x := s.current k
      s.reaches k = true ∧
      (s.session k).isSome = true ∧
      s.nextEvent x = none) :=
  ⟨⟨.clerk, qev, lg, by decide +kernel⟩,
   ⟨.clerk, qev, lg, (900), ([(1000, none)]), by decide +kernel⟩,
   ⟨.i3c, qev, lg, by decide +kernel⟩,
   ⟨.i3c, qi, lg, by decide +kernel⟩⟩

end SessionsLoginsAndEvents

namespace DataPortTransfers

def qi : State := { qs with sessions := sessions0.map fun x => { x with priv := 2 } }
def dp (s : State) (d : DataPort) : State := { s with dport := d }
def sW1 : State := dp qi { target := 0x2400 }
def sW2 : State := dp qi { holder := some (.can 0), target := 0x2400, opened := 0x2400, dir := 1, length := 500, content := (List.range 500).map fun i => BitVec.ofNat 8 i, used := 4000, burst := 64 }
def sW3 : State := dp qi { holder := some (.i3c), target := 0x2B00, opened := 0x2B00, dir := 1, length := 640, addr := 600, content := (List.range 640).map fun i => BitVec.ofNat 8 i, used := 4000, burst := 64 }
def sW4 : State := dp qi { holder := some .i3c, target := 0x2D00, opened := 0x2D00, whole := true, dir := 2, used := 4000, content := zeros 100, addr := 100 }
def sW5 : State := dp qi { holder := some .i3c, target := 0x2D00, opened := 0x2D00, whole := true, dir := 2, used := 4000 }
def sW6 : State := dp qi { holder := some (.i3c), target := 0x2400, opened := 0x2400, dir := 2, used := 4000 }

theorem met_1 :
    (∃ (k : Sess) (s : State) (_bs : List Byte) (i : Instr) (dir : Nat),
      let u := s.seated k
      let D := u.dport
      (i, dir) ∈ [(Instr.dataPortOpenRead k, 1), (.dataPortOpenWrite k, 2)] ∧
      s.accepts k 0x5F00 3 dir = true ∧
      s.portPriv (s.current k) D.target dir = true ∧
      (D.holder = none ∨ D.holder = some k) ∧
      u.mayOpen D.target dir = true) ∧
    (∃ (k : Sess) (s : State) (_bs : List Byte) (i : Instr) (dir : Nat),
      let u := s.seated k
      let D := u.dport
      (i, dir) ∈ [(Instr.dataPortOpenRead k, 1), (.dataPortOpenWrite k, 2)] ∧
      s.accepts k 0x5F00 3 dir = true ∧
      s.portPriv (s.current k) D.target dir = true ∧
      D.holder ≠ none ∧
      D.holder ≠ some k) ∧
    (∃ (k : Sess) (s : State) (_bs : List Byte),
      let u := s.seated k
      let D := u.dport
      s.accepts k 0x5F00 3 3 = true ∧
      D.holder = some k ∧
      D.whole = false) ∧
    (∃ (k : Sess) (s : State) (_bs : List Byte),
      let u := s.seated k
      let D := u.dport
      s.accepts k 0x5F00 3 3 = true ∧
      D.holder = some k ∧
      D.whole = true ∧
      D.opened = 0x2D00 ∧
      D.content ≠ [] ∧
      u.orderCheck D.content ≠ 0) ∧
    (∃ (k : Sess) (s : State) (_bs : List Byte),
      let u := s.seated k
      let D := u.dport
      s.accepts k 0x5F00 3 3 = true ∧
      D.holder ≠ some k) ∧
    (∃ (k : Sess) (s : State) (_bs : List Byte),
      let u := s.seated k
      let D := u.dport
      s.accepts k 0x5F00 3 4 = true ∧
      D.holder = some k) :=
  ⟨⟨.i3c, sW1, (zeros 64), (.dataPortOpenRead .i3c), 1, by decide +kernel⟩,
   ⟨.i3c, sW2, (zeros 64), (.dataPortOpenRead .i3c), 1, by decide +kernel⟩,
   ⟨.i3c, sW3, (zeros 64), by decide +kernel⟩,
   ⟨.i3c, sW4, (zeros 64), by decide +kernel⟩,
   ⟨.i3c, qi, (zeros 64), by decide +kernel⟩,
   ⟨.i3c, sW5, (zeros 64), by decide +kernel⟩⟩

theorem met_2 :
    (∃ (k : Sess) (s : State) (_bs : List Byte),
      let u := s.seated k
      let D := u.dport
      s.accepts k 0x5F00 3 4 = true ∧
      D.holder ≠ some k) ∧
    (∃ (k : Sess) (s : State) (_bs : List Byte),
      let u := s.seated k
      let D := u.dport
      s.reaches k = true ∧
      (s.session k).isSome = true ∧
      s.stopped = false ∧
      let n := min (u.portBurst (s.current k)) (D.length - D.addr)
      let unit := u.portUnit D.opened D.addr n
      D.holder = some k ∧
      D.addr % unit = 0 ∧
      u.portBurst (s.current k) % unit = 0 ∧
      u.portBurst (s.current k) ≠ 0 ∧
      D.dir = 1 ∧
      D.addr < D.length) ∧
    (∃ (k : Sess) (s : State) (_bs : List Byte),
      let u := s.seated k
      let D := u.dport
      s.reaches k = true ∧
      (s.session k).isSome = true ∧
      s.stopped = false ∧
      let n := min (u.portBurst (s.current k)) (D.length - D.addr)
      let unit := u.portUnit D.opened D.addr n
      let fits := D.addr % unit = 0 ∧ u.portBurst (s.current k) % unit = 0 ∧ u.portBurst (s.current k) ≠ 0
      D.holder ≠ none ∧
      ¬ fits) ∧
    (∃ (k : Sess) (s : State) (_bs : List Byte),
      let u := s.seated k
      let D := u.dport
      s.reaches k = true ∧
      (s.session k).isSome = true ∧
      s.stopped = false ∧
      let n := min (u.portBurst (s.current k)) (D.length - D.addr)
      let unit := u.portUnit D.opened D.addr n
      let fits := D.addr % unit = 0 ∧ u.portBurst (s.current k) % unit = 0 ∧ u.portBurst (s.current k) ≠ 0
      D.holder ≠ some k ∧
      (D.holder = none ∨ fits)) ∧
    (∃ (k : Sess) (s : State) (bs : List Byte),
      let u := s.seated k
      let D := u.dport
      s.reaches k = true ∧
      (s.session k).isSome = true ∧
      s.stopped = false ∧
      1 ≤ bs.length ∧
      bs.length ≤ 4096 ∧
      let unit := u.portUnit D.opened D.addr bs.length
      D.holder = some k ∧
      D.addr % unit = 0 ∧
      bs.length % unit = 0 ∧
      D.dir = 2 ∧
      D.whole = true ∧
      D.addr = D.content.length) ∧
    (∃ (k : Sess) (s : State) (bs : List Byte),
      let u := s.seated k
      let D := u.dport
      s.reaches k = true ∧
      (s.session k).isSome = true ∧
      s.stopped = false ∧
      1 ≤ bs.length ∧
      bs.length ≤ 4096 ∧
      let unit := u.portUnit D.opened D.addr bs.length
      D.holder = some k ∧
      D.addr % unit = 0 ∧
      bs.length % unit = 0 ∧
      D.dir = 2 ∧
      D.whole = false ∧
      ((({ u with dport := { D with used := s.now } } : State).putRecords D.opened D.addr bs).1).isSome = true) :=
  ⟨⟨.i3c, qi, (zeros 64), by decide +kernel⟩,
   ⟨(.can 0), sW2, (zeros 64), by decide +kernel⟩,
   ⟨.i3c, sW5, (zeros 64), by decide +kernel⟩,
   ⟨.i3c, qi, (zeros 64), by decide +kernel⟩,
   ⟨.i3c, sW5, (zeros 544), by decide +kernel⟩,
   ⟨.i3c, sW6, (zeros 64), by decide +kernel⟩⟩

theorem met_3 :
    (∃ (k : Sess) (s : State) (bs : List Byte),
      let u := s.seated k
      let D := u.dport
      s.reaches k = true ∧
      (s.session k).isSome = true ∧
      s.stopped = false ∧
      1 ≤ bs.length ∧
      bs.length ≤ 4096 ∧
      let unit := u.portUnit D.opened D.addr bs.length
      D.holder ≠ none ∧
      ¬ (D.addr % unit = 0 ∧ bs.length % unit = 0)) ∧
    (∃ (k : Sess) (s : State) (bs : List Byte),
      let u := s.seated k
      let D := u.dport
      s.reaches k = true ∧
      (s.session k).isSome = true ∧
      s.stopped = false ∧
      1 ≤ bs.length ∧
      bs.length ≤ 4096 ∧
      let unit := u.portUnit D.opened D.addr bs.length
      D.holder ≠ some k ∧
      (D.holder = none ∨ (D.addr % unit = 0 ∧ bs.length % unit = 0))) ∧
    (∃ (_k : Sess) (s : State) (_bs : List Byte),
      s.dport.holder ≠ none ∧
      s.setCounters = []) :=
  ⟨⟨.i3c, sW5, (zeros 64), by decide +kernel⟩,
   ⟨.i3c, qi, (zeros 64), by decide +kernel⟩,
   ⟨.clerk, sW5, (zeros 64), by decide +kernel⟩⟩

end DataPortTransfers

namespace CountersAndJostleAccesses

def qi : State := { qs with sessions := sessions0.map fun x => { x with priv := 2 } }
def qc : State := { qi with test := { qi.test with ctrs := [(4, { count := 5 }), (5, { count := 6, ovf := true }), (9, { count := 1 })] } }
def slot (kind : Nat) (s : State) : State := s.setObj 0x3810 3 (kind * 2^60 + 2^27)
def sW1 : State := slot 2 qc
def sW2 : State := qc.setObj 0x2E00 0x0E 1
def sW3 : State := { qc.setObj 0x3800 1 1 with test := { qc.test with jostleAt := some 4000 } }

theorem met_1 :
    (∃ (k : Sess) (s : State) (_c : Nat) (_v : Nat),
      s.accepts k 0x3680 4 1 = true) ∧
    (∃ (k : Sess) (s : State) (_c : Nat) (_v : Nat),
      s.accepts k 0x3680 4 2 = true) ∧
    (∃ (k : Sess) (s : State) (_c : Nat) (_v : Nat),
      s.accepts k 0x3680 4 3 = true ∧
      s.setCounters = []) ∧
    (∃ (k : Sess) (s : State) (_c : Nat) (_v : Nat),
      s.accepts k 0x3680 5 1 = true ∧
      s.setCounters = []) ∧
    (∃ (k : Sess) (s : State) (c : Nat) (v : Nat),
      c < 1664 ∧
      s.accepts k (0x3000 + c) 1 v = true ∧
      let bad := (bit v 19 = true ∧ c % 2 = 0) ∨ (v % 65536 ≠ 0 ∧ eventOfKind (c < 1536) (v % 65536) = false)
      bad) ∧
    (∃ (k : Sess) (s : State) (c : Nat) (v : Nat),
      c < 1664 ∧
      s.accepts k (0x3000 + c) 1 v = true ∧
      let bad := (bit v 19 = true ∧ c % 2 = 0) ∨ (v % 65536 ≠ 0 ∧ eventOfKind (c < 1536) (v % 65536) = false)
      ¬ bad) :=
  ⟨⟨.i3c, qc, 0, 0, by decide +kernel⟩,
   ⟨.i3c, qc, 0, 0, by decide +kernel⟩,
   ⟨.i3c, qc, 0, 0, by decide +kernel⟩,
   ⟨.i3c, qc, 0, 0, by decide +kernel⟩,
   ⟨.i3c, qc, 0, 0x101, by decide +kernel⟩,
   ⟨.i3c, qc, 0, 0, by decide +kernel⟩⟩

theorem met_2 :
    (∃ (k : Sess) (s : State) (_c : Nat) (_v : Nat),
      s.accepts k 0x3800 1 1 = true ∧
      let mask := ((List.range 16).filter fun i => s.slotBad (s.obj 0x3810 (i + 1))).foldl (fun m i => m ||| 2 ^ i) 0
      s.test.jostleAt = none ∧
      s.running = true ∧
      s.pausing = false ∧
      mask = 0 ∧
      (∀ i < 16, jKind (s.obj 0x3810 (i + 1)) ≠ 5)) ∧
    (∃ (k : Sess) (s : State) (_c : Nat) (_v : Nat),
      s.accepts k 0x3800 1 1 = true ∧
      let mask := ((List.range 16).filter fun i => s.slotBad (s.obj 0x3810 (i + 1))).foldl (fun m i => m ||| 2 ^ i) 0
      s.test.jostleAt = none ∧
      s.running = true ∧
      s.pausing = false ∧
      mask ≠ 0) ∧
    (∃ (k : Sess) (s : State) (_c : Nat) (_v : Nat),
      s.accepts k 0x3800 1 1 = true ∧
      s.test.jostleAt = none ∧
      (s.running = false ∨ s.pausing = true)) ∧
    (∃ (k : Sess) (s : State) (_c : Nat) (_v : Nat),
      s.accepts k 0x3800 1 0 = true ∧
      s.test.jostleAt ≠ none ∧
      s.jSlots = []) :=
  ⟨⟨.i3c, qc, 0, 0, by decide +kernel⟩,
   ⟨.i3c, sW1, 0, 0, by decide +kernel⟩,
   ⟨.i3c, sW2, 0, 0, by decide +kernel⟩,
   ⟨.i3c, sW3, 0, 0, by decide +kernel⟩⟩

end CountersAndJostleAccesses

namespace PortMeterAndTimetableWrites

def qi : State := { qs with sessions := sessions0.map fun x => { x with priv := 2 }, twins := { qs.twins with roster := BitVec.allOnes 264 } }
def tab (l : List (Nat × Nat × Nat)) (len : Nat) : State := ({ qi with table := { qi.table with admin := l } }.setObj 0x2700 4 len).setObj 0x2700 3 1000000
def sW1 : State := State.setObj { qi with ports := qi.ports.map fun q => { q with covered := [(1, 2, 3)] } } 0x2040 1 0
def sW2 : State := tab [(0, 3, 100), (1, 5, 63)] 1

theorem met_1 :
    (∃ (k : Sess) (s : State) (p : Nat) (_c : Nat) (_sub : Nat) (v : Nat),
      p < s.size.ports ∧
      s.accepts k 0x2040 (p + 1) v = true ∧
      let was := bit (s.portCfg p) 0
      was = bit v 0) ∧
    (∃ (k : Sess) (s : State) (p : Nat) (_c : Nat) (_sub : Nat) (v : Nat),
      p < s.size.ports ∧
      s.accepts k 0x2040 (p + 1) v = true ∧
      let was := bit (s.portCfg p) 0
      let q := s.port p
      was = true ∧
      bit v 0 = false ∧
      s.Inv ∧
      s.ops = [] ∧
      s.seqs = [] ∧
      s.test.tagged = [] ∧
      q.outq = [] ∧
      (∀ e ∈ s.tal.tallies, ¬ (e.2.state = 1 ∧ e.2.owner ≠ 0xFF ∧ e.2.pbind = true ∧ e.2.oport.toNat = p))) ∧
    (∃ (k : Sess) (s : State) (p : Nat) (_c : Nat) (_sub : Nat) (v : Nat),
      p < s.size.ports ∧
      s.accepts k 0x2040 (p + 1) v = true ∧
      let was := bit (s.portCfg p) 0
      was = false ∧
      bit v 0 = true ∧
      s.Inv ∧
      s.running = true ∧
      s.twins.roster.getLsbD (216 + p) = true ∧
      (s.bay (p / 2)).repair.island = true ∧
      s.partners = []) ∧
    (∃ (k : Sess) (s : State) (_p : Nat) (c : Nat) (sub : Nat) (v : Nat),
      c < 64 ∧
      sub ∈ [6, 7, 8, 9] ∧
      s.accepts k (0x2600 + c) sub v = true ∧
      let bad := (sub = 6 ∧ s.obj (0x2600 + c) 8 < v) ∨ (sub = 8 ∧ v < s.obj (0x2600 + c) 6)
      bad) ∧
    (∃ (k : Sess) (s : State) (_p : Nat) (c : Nat) (sub : Nat) (v : Nat),
      c < 64 ∧
      sub ∈ [6, 7, 8, 9] ∧
      s.accepts k (0x2600 + c) sub v = true ∧
      let m := s.meter (.cls c)
      let bad := (sub = 6 ∧ s.obj (0x2600 + c) 8 < v) ∨ (sub = 8 ∧ v < s.obj (0x2600 + c) 6)
      ¬ bad ∧
      m.slot = none) ∧
    (∃ (k : Sess) (s : State) (_p : Nat) (_c : Nat) (_sub : Nat) (_v : Nat),
      s.accepts k 0x2700 5 1 = true ∧
      let len := s.obj 0x2700 4
      let list := (List.range len).map s.table.entry
      let ok := len ≠ 0 ∧ s.table.waiting = none ∧ ∀ e ∈ list, 64 ≤ e.2 ∧ e.2 ≤ 1000000000
      ok) :=
  ⟨⟨.i3c, sW1, 0, 0, 0, 0, by decide +kernel⟩,
   ⟨.i3c, sW1, 1, 0, 0, 0, by decide +kernel⟩,
   ⟨.i3c, sW1, 0, 0, 0, 1, by decide +kernel⟩,
   ⟨.i3c, sW1, 0, 0, 6, 1, by decide +kernel⟩,
   ⟨.i3c, sW1, 0, 0, 6, 0, by decide +kernel⟩,
   ⟨.i3c, sW2, 0, 0, 0, 0, by decide +kernel⟩⟩

theorem met_2 :
    ∃ (k : Sess) (s : State) (_p : Nat) (_c : Nat) (_sub : Nat) (_v : Nat),
      s.accepts k 0x2700 5 1 = true ∧
      let len := s.obj 0x2700 4
      let list := (List.range len).map s.table.entry
      let ok := len ≠ 0 ∧ s.table.waiting = none ∧ ∀ e ∈ list, 64 ≤ e.2 ∧ e.2 ≤ 1000000000
      ¬ ok :=
  ⟨.i3c, sW1, 0, 0, 0, 0, by decide +kernel⟩

end PortMeterAndTimetableWrites

namespace CreditsEscapeAndHeldRequests

def fen (k : Nat) : Arrival := { port := 0, hdr := { hdr0 with opcode := 0x0C, ord := true, seq := 5, w3 := BitVec.ofNat 64 k } }
def held (a : Arrival) : HeldReq := { id := 3, msg := a, at_ := 4000 }
def k5 : SrcKey := { src := 5 }
def seqd (q : SeqSt) : State := { q1 with nextId := 9, seqs := [{ key := { src := 4 } }, q] }
def om : OutMsg := { hdr := { mclass := 1, opcode := 0x22, tag := 3 }, since := 4900 }
def sW1 : State := q1.setPort 0 { q1.port 0 with outq := [om], credits := [5, 0, 5, 5, 5, 5, 5, 5] }
def sW2 : State := seqd { key := k5, next := some 6, turn := [held (fen 0)], last := some 1 }
def heldreqW3 : HeldReq := held (fen 0)
def sW4 : State := seqd { key := k5, next := some 6, held := [held (asMsg (wrA 0 1 0 0 7 (ordH 9 false)) 2 0)], last := some 1 }
def heldreqW5 : HeldReq := held (asMsg (wrA 0 1 0 0 7 (ordH 9 false)) 2 0)

theorem met :
    (∃ (s : State) (p : Nat) (cr : BitVec 9),
      let vc := cr.toNat / 32 % 8
      let q := s.port p
      s.inService p = true ∧
      256 ≤ cr.toNat ∧
      (∀ m ∈ q.outq, m.hdr.mclass.toNat ≠ vc)) ∧
    (∃ (s : State) (p : Nat) (m : OutMsg),
      let q := s.port p
      let i := 4 + m.hdr.mclass.toNat
      s.unobserved = true ∧
      s.inService p = true ∧
      q.outq = [m] ∧
      flitsOf m.data ≤ q.credits.getD i 0 ∧
      q.credits.getD m.hdr.mclass.toNat 0 < flitsOf m.data) ∧
    (∃ (s : State) (key : SrcKey) (h : HeldReq),
      let a := h.msg
      let q := s.seqOf key
      s.unobserved = true ∧
      s.alone = true ∧
      s.pausing = false ∧
      s.inService a.port = true ∧
      (s.port a.port).holds = [] ∧
      q.turn = [h] ∧
      seqKey a = key ∧
      a.hdr.opcode = 0x0C ∧
      a.hdr.mclass = 0 ∧
      a.hdr.ord = true ∧
      a.hdr.csg = false ∧
      malformed a = false ∧
      a.fkind ≤ 2 ∧
      s.franksNow a = true ∧
      s.canAnswer a.port 1 = true ∧
      (∀ w ∈ s.tal.waiters, ¬ (w.msg.hdr.ord = true ∧ seqKey w.msg = key))) ∧
    (∃ (s : State) (key : SrcKey) (h : HeldReq),
      let a := h.msg
      s.unobserved = true ∧
      s.alone = true ∧
      s.inService a.port = true ∧
      (s.port a.port).holds = [] ∧
      (s.seqOf key).held = [h] ∧
      (s.seqOf key).turn = [] ∧
      seqKey a = key ∧
      a.hdr.opcode ∈ [0x02#8, 0x08, 0x0C, 0x0E] ∧
      s.canAnswer a.port 1 = true) ∧
    (∃ (s : State) (key : SrcKey),
      s.setCounters = [] ∧
      ∃ q ∈ (s.seqs.find? fun x => x.key == key),
      s.seqBusy key = false) :=
  ⟨⟨q1, 0, 0x100, by decide +kernel⟩,
   ⟨sW1, 0, om, by decide +kernel⟩,
   ⟨sW2, k5, heldreqW3, by decide +kernel⟩,
   ⟨sW4, k5, heldreqW5, by decide +kernel⟩,
   ⟨sW2, ({ src := 4 }), by decide +kernel⟩⟩

end CreditsEscapeAndHeldRequests

namespace RequestsEnterAndAwaitTheirBays

def stk (a : Arrival) (ps : List Part) (st : Stage) (k : ReqKind := .rd) : Op := { id := 3, kind := k, msg := a, stage := st, parts := ps, bays := [2, 3], await := [2, 3] }
def pt (ph : PartPhase) (g := 4) : Part := { gran := g, bay := 3, pc := 5, loc := 77, phase := ph }
def m1 : Arrival := asMsg (rdA 128 1) 1 0
def m3 : Arrival := asMsg (rdA 0 3) 1 0
def oI : Op := stk m1 [pt .queued 9, pt .ingress] .bay
def oS : Op := stk (asMsg (wrA 128 2 7 7 9) 2 0) [pt .done 4, pt .done 5] .staged .wr
def oV : Op := stk m3 [] (.vbit 0)
def oQ : Op := stk m1 [pt .queued] .bay
def bq : BankReq := { op := 3, part := 0, pc := 5, bank := 2, row := 9, cls := 0, prio := 4, at_ := 4000 }
def qo (o : Op) : State := { q1 with ops := [o], nextId := 9 }
def sBay (s : State) (f : Bay → Bay) : State := s.modBay 3 f
def sW1 : State := sBay (qo oI) fun y => { y with sched := { y.sched with queue := (List.range 8).map fun i => { bq with op := 40 + i } } }
def sW2 : State := (qo oI).setObj 0x2600 0x0C 0
def sW3 : State := qo oS
def sW4 : State := qo oV
def sW5 : State := sBay (qo oQ) fun y => { y with sched := { y.sched with queue := [{ bq with part := 4 }, bq] } }

theorem met :
    (∃ (s : State) (o : Op) (i : Nat) (bank : Nat) (_row : Nat) (p : Part),
      let y := (s.bay p.bay).sched
      let c := clsOf o.msg
      s.Inv ∧
      s.unobserved = true ∧
      s.op o.id = some o ∧
      o.parts[i]? = some p ∧
      o.inIngress p.bay c p = true ∧
      p.bay < s.size.bays ∧
      bank < 64 ∧
      y.ingressHold ≤ y.cycle ∧
      s.ingressTurn o i bank p = true ∧
      8 ≤ (y.bankQueue p.pc bank).length) ∧
    (∃ (s : State) (o : Op) (i : Nat) (bank : Nat) (_row : Nat) (p : Part),
      let y := (s.bay p.bay).sched
      let c := clsOf o.msg
      s.Inv ∧
      s.unobserved = true ∧
      s.op o.id = some o ∧
      o.parts[i]? = some p ∧
      o.inIngress p.bay c p = true ∧
      p.bay < s.size.bays ∧
      bank < 64 ∧
      y.ingressHold ≤ y.cycle ∧
      s.ingressTurn o i bank p = true ∧
      (y.bankQueue p.pc bank).length < 8 ∧
      s.spaceOk p.bay c 32 = false) ∧
    (∃ (s : State) (o : Op) (i : Nat) (bank : Nat) (_row : Nat) (p : Part),
      let y := (s.bay p.bay).sched
      let c := clsOf o.msg
      s.Inv ∧
      s.unobserved = true ∧
      s.op o.id = some o ∧
      o.parts[i]? = some p ∧
      o.inIngress p.bay c p = true ∧
      p.bay < s.size.bays ∧
      bank < 64 ∧
      y.ingressHold ≤ y.cycle ∧
      s.ingressTurn o i bank p = true ∧
      (y.bankQueue p.pc bank).length < 8 ∧
      s.spaceOk p.bay c 32 = true ∧
      (c = 0 → s.inWindow p.bay p.pc = false)) ∧
    (∃ (s : State) (o : Op) (b : Nat),
      s.ops = [o] ∧
      o.stage = .staged ∧
      b ∈ o.await ∧
      (∃ c ∈ o.await, c ≠ b) ∧
      (∀ p ∈ o.parts, p.bad = false) ∧
      s.spaceOk b (clsOf o.msg) (32 * (o.written.filter fun i => (s.place (32 * (o.first + i))).1 == b).length) = true) ∧
    (∃ (s : State) (o : Op) (line : Nat) (ok1 : Bool) (ok2 : Bool),
      let n := o.msg.granules
      s.unobserved = true ∧
      s.waits = [] ∧
      s.ops = [o] ∧
      o.kind = .rd ∧
      o.stage = .vbit line ∧
      o.msg.hdr.opcode = 0x01 ∧
      o.msg.hdr.ord = false ∧
      s.inService o.msg.port = true ∧
      s.canAnswer o.msg.port (1 + ceilDiv n 2) = true ∧
      (∀ g ∈ spanGranules o.msg n, g / 128 / 512 = line ∧ s.validBit (g / 128) = false) ∧
      s.shelf.badLines = [] ∧
      (ok1 = true ∧ s.copyGood (s.storeBays line).1 line = true) ∨ (ok2 = true ∧ s.copyGood (s.storeBays line).2 line = true)) ∧
    (∃ (s : State) (b : Nat) (i : Nat) (o : Op),
      s.Inv ∧
      b < s.size.bays ∧
      s.setCounters = [] ∧
      (((s.bay b).sched.queue.find? fun x => !x.write && x.op == o.id && x.part == i && !x.aged)).isSome = true) :=
  ⟨⟨sW1, oI, 1, 2, 0, (pt .ingress), by decide +kernel⟩,
   ⟨sW2, oI, 1, 0, 0, (pt .ingress), by decide +kernel⟩,
   ⟨sW1, oI, 1, 0, 0, (pt .ingress), by decide +kernel⟩,
   ⟨sW3, oS, 2, by decide +kernel⟩,
   ⟨sW4, oV, 0, false, true, by decide +kernel⟩,
   ⟨sW5, 3, 0, oI, by decide +kernel⟩⟩

end RequestsEnterAndAwaitTheirBays

namespace BayCommandsAndRefresh

def stk (a : Arrival) (ps : List Part) (st : Stage) (k : ReqKind := .rd) : Op := { id := 3, kind := k, msg := a, stage := st, parts := ps, bays := [2, 3], await := [2, 3] }
def pt (ph : PartPhase) (g := 4) : Part := { gran := g, bay := 3, pc := 5, loc := 77, phase := ph }
def m1 : Arrival := asMsg (rdA 128 1) 1 0
def oQ : Op := stk m1 [pt .queued] .bay
def bq : BankReq := { op := 3, part := 0, pc := 5, bank := 2, row := 9, cls := 0, prio := 4, at_ := 4000 }
def sBay (s : State) (f : Bay → Bay) : State := s.modBay 3 f
def qo (o : Op) : State := { q1 with ops := [o], nextId := 9 }
def bk : Bank := { pc := 5, bank := 2, row := some 9, used := 3 }
def bs (l : List Bank) (q : List BankReq) (p : List PcSt := []) (s : State := qo oQ) : State := sBay s fun y => { y with sched := { y.sched with cycle := 10000, banks := l, queue := q, pcs := p } }
def sW1 : State := bs [bk] [bq]
def sW2 : State := bs [{ pc := 5, bank := 1, owed := 3 }, bk] []
def sW3 : State := bs [bk] [] [{ pc := 5, burst := true, burstOff := some 5100 }]
def sW4 : State := bs [{ bk with owed := 9, at9 := some 4700, row := none }] []

theorem met :
    (∃ (s : State) (b : Nat),
      s.Inv ∧
      b < s.size.bays ∧
      s.unobserved = true ∧
      (s.bay b).sched.queue = [] ∧
      (s.bay b).sched.banks = []) ∧
    (∃ (s : State) (b : Nat) (q : BankReq),
      let y := (s.bay b).sched
      s.Inv ∧
      b < s.size.bays ∧
      s.unobserved = true ∧
      s.stackHeld b = false ∧
      s.inWindow b q.pc = false ∧
      (s.bay b).therm.level ≤ 1 ∧
      s.busyPcs b = [q.pc] ∧
      (s.drainState b q.pc).pickColumn b q.pc = some q ∧
      (y.pcOf q.pc).taken = false ∧
      q.write = false ∧
      q ∈ y.queue ∧
      (s.op q.op).isSome = true) ∧
    (∃ (s : State) (b : Nat) (pc : Nat) (bank : Nat),
      let y := (s.bay b).sched
      let k := y.bankOf pc bank
      s.Inv ∧
      b < s.size.bays ∧
      s.setCounters = [] ∧
      s.stackHeld b = false ∧
      k.row ≠ none ∧
      y.bankQueue pc bank = [] ∧
      s.inWindow b pc = false) ∧
    (∃ (s : State) (b : Nat) (pc : Nat) (bank : Nat),
      let y := (s.bay b).sched
      let k := y.bankOf pc bank
      s.Inv ∧
      b < s.size.bays ∧
      s.setCounters = [] ∧
      s.stackHeld b = false ∧
      bank < 64 ∧
      s.pcInService b pc = true ∧
      k.o < 9) ∧
    (∃ (s : State) (b : Nat) (pc : Nat) (_bank : Nat),
      let y := (s.bay b).sched
      s.Inv ∧
      b < s.size.bays ∧
      s.setCounters = [] ∧
      s.stackHeld b = false ∧
      (y.pcOf pc).burst = true ∧
      ((y.pcOf pc).burstOff).isSome = true) ∧
    (∃ (s : State) (b : Nat) (pc : Nat) (bank : Nat),
      let y := (s.bay b).sched
      let k := y.bankOf pc bank
      s.Inv ∧
      b < s.size.bays ∧
      s.setCounters = [] ∧
      s.stackHeld b = false ∧
      ∃ d ∈ k.at9,
      s.silent = true) :=
  ⟨⟨q1, 0, by decide +kernel⟩,
   ⟨sW1, 3, bq, by decide +kernel⟩,
   ⟨sW2, 3, 5, 2, by decide +kernel⟩,
   ⟨q1, 0, 0, 0, by decide +kernel⟩,
   ⟨sW3, 3, 5, 0, by decide +kernel⟩,
   ⟨sW4, 3, 5, 2, by decide +kernel⟩⟩

end BayCommandsAndRefresh

namespace ReadsWritebacksAndScrubbing

def pt (ph : PartPhase) (g := 4) : Part := { gran := g, bay := 3, pc := 5, loc := 77, phase := ph }
def m1 : Arrival := asMsg (rdA 128 1) 1 0
def oK (ph : PartPhase) : Op := { id := 3, kind := .rd, msg := m1, stage := .bay, parts := [pt ph], bays := [3] }
def qo (o : Op) : State := { q1 with ops := [o], nextId := 9 }
def cl (d : Nat) (e := false) : CLine := { line := 2, gvalid := 3, dirty := BitVec.ofNat 2 d, evict := e, data := (List.range 64).map fun i => BitVec.ofNat 8 (i+1) }
def cs (c : CLine) : State := { q1 with mem := { q1.mem with carrel := [c] }, shelf := { q1.shelf with valid := [0] } }
def wm : Arrival := asMsg (wrA 0 1 0 0 7) 0x02 0
def oM : Op := { id := 3, kind := .wr, msg := wm, stage := .mirror }
def sent1 (tag : Nat) (op : Option Nat) (s := true) : SentFwr := { tag := BitVec.ofNat 16 tag, seq := 0, sync := true, port := 1, home := 0, op := op, tile := none, hdr := { addr := 4096 }, data := [], deadline := 9000, sent := s }
def pr (b : Bool) : Partner := { block := 6, nextSeq := 2, nextTag := 3, needSync := false, unanswered := [sent1 1 none, sent1 9 (some 3) b] }
def qm (b : Bool) : State := { q1 with shelf := q0.shelf, nextId := 4, ops := [oM], partners := [{ block := 2, unanswered := [sent1 7 none] }, pr b] }
def sW1 : State := { qo (oK .stack) with mem := { q1.mem with stack := [(128, 7), (129, 9)] } }
def opW2 : Op := oK .stack
def sW3 : State := { qo (oK .carrel) with mem := (cs (cl 1)).mem }
def opW4 : Op := oK .carrel
def sW5 : State := cs (cl 0)
def sW6 : State := cs (cl 3 true)
def sW7 : State := qm true

theorem met_1 :
    (∃ (s : State) (o : Op) (p : Part) (inner : Bool) (_reread : SymErr),
      s.Inv ∧
      s.unobserved = true ∧
      s.waits = [] ∧
      s.ops = [o] ∧
      o.kind = .rd ∧
      o.msg.hdr.opcode = 0x01 ∧
      o.msg.hdr.ord = false ∧
      o.msg.hdr.len = 0 ∧
      o.parts = [p] ∧
      p.keep = none ∧
      s.inService o.msg.port = true ∧
      s.canAnswer o.msg.port 2 = true ∧
      p.phase = .stack ∧
      carrelHit s.mem p.gran = false ∧
      p.gran ∉ s.mem.marked ∧
      (∀ e ∈ s.mem.chk, e.1 ≠ p.gran) ∧
      s.windowErasures p.gran = [] ∧
      inner = false) ∧
    (∃ (s : State) (o : Op) (p : Part) (_inner : Bool) (_reread : SymErr),
      s.Inv ∧
      s.unobserved = true ∧
      s.waits = [] ∧
      s.ops = [o] ∧
      o.kind = .rd ∧
      o.msg.hdr.opcode = 0x01 ∧
      o.msg.hdr.ord = false ∧
      o.msg.hdr.len = 0 ∧
      o.parts = [p] ∧
      p.keep = none ∧
      s.inService o.msg.port = true ∧
      s.canAnswer o.msg.port 2 = true ∧
      p.phase = .carrel ∧
      ∃ c ∈ carrelLine s.mem (p.gran / 2),
      c.gvalid.getLsbD (p.gran % 2) = true ∧
      s.carrelMay p.bay (clsOf o.msg == 0) = true) ∧
    (∃ (s : State) (c : CLine) (bank : Nat) (_row : Nat) (_evict : Bool),
      let b := (s.gplace (2 * c.line)).1
      s.Inv ∧
      b < s.size.bays ∧
      s.setCounters = [] ∧
      carrelLine s.mem c.line = some c ∧
      bank < 64 ∧
      c.dirty = 0) ∧
    (∃ (s : State) (c : CLine) (bank : Nat) (_row : Nat) (evict : Bool),
      let b := (s.gplace (2 * c.line)).1
      let pc := (s.gplace (2 * c.line)).2.1
      let y := (s.bay b).sched
      s.Inv ∧
      b < s.size.bays ∧
      s.setCounters = [] ∧
      carrelLine s.mem c.line = some c ∧
      bank < 64 ∧
      c.dirty ≠ 0 ∧
      (c.evict = true ∨ (evict = false ∧ s.cleanerTakes b c = true)) ∧
      (∀ q ∈ y.queue, ¬ (q.write = true ∧ q.op = c.line)) ∧
      (y.bankQueue pc bank).length ≤ 6) ∧
    (∃ (s : State) (b : Nat) (line : Nat) (err : SymErr) (_reread : SymErr) (_inner : Bool),
      let pc := s.storePc b line
      s.Inv ∧
      b < s.size.bays ∧
      s.setCounters = [] ∧
      (s.bay b).repair.state = 4 ∧
      s.inPass b (.store line) = true ∧
      (s.bay b).evid.passRead = [] ∧
      s.stackHeld b = false ∧
      s.inWindow b pc = false ∧
      (∀ q ∈ (s.bay b).sched.queue, q.pc ≠ pc) ∧
      ((s.lanes b pc).erased.map posOf = []) ∧
      err = [] ∧
      1 < s.passTotal b) ∧
    (∃ (s : State) (b : Nat),
      s.Inv ∧
      b < s.size.bays ∧
      s.idle = true ∧
      s.fenced b = false) :=
  ⟨⟨sW1, opW2, (pt .stack), false, ([]), by decide +kernel⟩,
   ⟨sW3, opW4, (pt .carrel), false, ([]), by decide +kernel⟩,
   ⟨sW5, (cl 0), 0, 0, false, by decide +kernel⟩,
   ⟨sW6, (cl 3 true), 0, 0, false, by decide +kernel⟩,
   ⟨q0, 0, 0, ([]), ([]), false, by decide +kernel⟩,
   ⟨q0, 0, by decide +kernel⟩⟩

theorem met_2 :
    ∃ (s : State) (p : Partner) (x : SentFwr) (o : Op),
      s.unobserved = true ∧
      s.silent = true ∧
      s.partner p.block = p ∧
      (p.unanswered.find? fun y => y.tag == x.tag) = some x ∧
      x.op = some o.id ∧
      s.ops = [o] ∧
      s.waits = [] ∧
      o.kind = .wr ∧
      o.msg.hdr.ord = false ∧
      s.inService o.msg.port = true ∧
      s.canAnswer o.msg.port 1 = true :=
  ⟨sW7, (pr true), (sent1 9 (some 3) true), oM, by decide +kernel⟩

end ReadsWritebacksAndScrubbing

namespace ReservationsReadsAndTheEndOfAConsignment

def slip2 : List Nat := [0x0222600000000002, 0x0000000100000000, 0, 0, 0x0700000000000000, 0, 0, 0, 0x0911000000000000, 0, 0, 0, 2^54, 0x0400000000000000, 2^54 + 8192, 0x0400000000000000]
def sAd : State := run q1 [.admission (admA slip1)]
def sAd2 : State := run q1 [.admission (admA slip2)]
def sAct2 : State := run sAd2 ((sAd2.con 0).elim [] fun c => c.await.map fun b => .reservationConfirm 0 b true)
def cleanW (s : State) : State := { s with wire := [] }
def slip1r : List Nat := [0x0216000000000002, 0x01F4000100000000, 0, 0, 0x010FF00000000000, 0xFFFFF00000, 0, 0, 0x0300000000000000, 0, 0, 0, 0x0700000000000000, 2^20, 0, 0, 0x0501100000000003, 0xFFE0, 0, 0,
  0x0600000000000000, 0,0,0, 0x0910000000000000,0,0,0, 2^54, 0x0400000000000000,0,0]
def sAdr : State := run q1 [.admission (admA slip1r)]
def sActr : State := run sAdr ((sAdr.con 0).elim [] fun c => c.await.map fun b => .reservationConfirm 0 b true)
def c0 (s : State) : Con := (s.con 0).getD { cid := 99, state := .active, cgen := 0, msg := {port := 0, hdr := {}}, slip := {}, bytes := [], ctns := 0 }
def cDone : Con := { c0 sAct2 with state := .draining, tiles := [], release := none }
def cDoneR : Con := { c0 sAct2 with state := .draining, tiles := [], release := some (asMsg { port := 0, hdr := hdr0 } 8 0), outcome := stFenced }
def cDoneT : Con := { c0 sAct2 with state := .draining, tiles := [], slip := { (c0 sAct2).slip with ctally := some 7 }, outcome := stShort }
def wc (c : Con) (s : State := q1) : State := { s with cons := [{ c with cid := 5 }, c] }
def tl7 : State := { wc cDoneT with tal := { q1.tal with tallies := [(7, { use_ := 2, state := 1, bound := true, limit := 5, value := 4 })] } }
def sW1 : State := cleanW sAd
def conW2 : Con := c0 sAd
def sW3 : State := { cleanW sAd with cons := sAd.cons.map fun c => { c with await := c.await ++ [9] } }
def conW4 : Con := { c0 sAd with await := (c0 sAd).await ++ [9] }
def sW5 : State := cleanW sActr
def conW6 : Con := c0 sActr
def sW7 : State := cleanW sAct2
def conW8 : Con := c0 sAct2
def sW9 : State := wc cDone
def sW10 : State := wc cDoneR

theorem met_1 :
    (∃ (s : State) (c : Con) (b : Nat) (ok : Bool),
      s.unobserved = true ∧
      s.con c.cid = some c ∧
      c.state = .admitting ∧
      b ∈ c.await ∧
      c.msg.hdr.ord = false ∧
      s.inService c.msg.port = true ∧
      s.canAnswer c.msg.port 1 = true ∧
      (ok = false ∨ s.canReserve c b = false)) ∧
    (∃ (s : State) (c : Con) (b : Nat),
      s.unobserved = true ∧
      s.con c.cid = some c ∧
      c.state = .admitting ∧
      b ∈ c.await ∧
      c.msg.hdr.ord = false ∧
      s.inService c.msg.port = true ∧
      s.canAnswer c.msg.port 1 = true ∧
      s.canReserve c b = true ∧
      (∃ d ∈ c.await, d ≠ b)) ∧
    (∃ (s : State) (c : Con) (b : Nat),
      s.unobserved = true ∧
      s.con c.cid = some c ∧
      c.state = .admitting ∧
      b ∈ c.await ∧
      c.msg.hdr.ord = false ∧
      s.inService c.msg.port = true ∧
      s.canAnswer c.msg.port 1 = true ∧
      s.canReserve c b = true ∧
      c.await = [b] ∧
      c.slip.ctally = none ∧
      c.slip.ttally = none ∧
      c.slip.postmark = none ∧
      (c.slip.kind = 1 → c.slip.window = 1 ∧ c.reserved = [] ∧ c.weightBad = false ∧ (s.nextTile c b).isSome = true)) ∧
    (∃ (s : State) (c : Con) (i : Nat),
      s.unobserved = true ∧
      s.ops = [] ∧
      s.con c.cid = some c ∧
      ∃ z ∈ c.tile? i,
      c.slip.kind = 1 ∧
      c.slip.retrieval.isSome = true ∧
      c.slip.postmark = none ∧
      z.phase = .open_ ∧
      z.retrieved = false ∧
      s.obj 0x2E00 0x0E ≠ 2 ∧
      s.check75 (c.slip.srcAddr i) c.slip.tileBytes c.readAccess = stOk ∧
      s.spanAtHand (c.slip.srcAddr i) c.slip.tileBytes = true ∧
      z.count + 1 ≠ c.slip.count ∧
      z.staged.length + 1 < s.obj 0x2070 2) ∧
    (∃ (s : State) (c : Con),
      let i := c.streamNext
      let a := c.slip.srcAddr i
      let n := c.slip.tileBytes
      s.unobserved = true ∧
      s.con c.cid = some c ∧
      c.slip.kind = 2 ∧
      c.state = .active ∧
      i < c.slip.ntiles ∧
      (c.tiles.filter fun z => !z.left).length < c.slip.window ∧
      s.pausing = false ∧
      s.gateOpen (clsOf c.msg) = true ∧
      c.slip.crate = 0 ∧
      s.unmetered (.cls (clsOf c.msg)) = true ∧
      s.check75 a n c.readAccess = stOk ∧
      s.spanAtHand a n = true ∧
      c.begun i = false ∧
      c.slip.postmark = none ∧
      c.slip.dests ≠ []) ∧
    (∃ (s : State) (c : Con),
      s.unobserved = true ∧
      s.con c.cid = some c ∧
      c.state ≠ .admitting ∧
      s.conOver c = true ∧
      c.slip.ttally = none ∧
      c.slip.ctally = none ∧
      c.release = none) :=
  ⟨⟨sW1, conW2, 0, false, by decide +kernel⟩,
   ⟨sW3, conW4, 0, by decide +kernel⟩,
   ⟨sW1, conW2, 0, by decide +kernel⟩,
   ⟨sW5, conW6, 0, by decide +kernel⟩,
   ⟨sW7, conW8, by decide +kernel⟩,
   ⟨sW9, cDone, by decide +kernel⟩⟩

theorem met_2 :
    (∃ (s : State) (c : Con),
      s.unobserved = true ∧
      s.con c.cid = some c ∧
      c.state ≠ .admitting ∧
      s.conOver c = true ∧
      c.slip.ttally = none ∧
      c.slip.ctally = none ∧
      ∃ a ∈ c.release,
      a.hdr.ord = false ∧
      s.inService a.port = true ∧
      s.canAnswer a.port 1 = true) ∧
    (∃ (s : State) (c : Con),
      s.unobserved = true ∧
      s.con c.cid = some c ∧
      c.state ≠ .admitting ∧
      s.conOver c = true ∧
      c.slip.ttally = none ∧
      ∃ n ∈ c.slip.ctally,
      c.ctBound = true ∧
      c.release = none ∧
      s.tallyWaiters n = [] ∧
      (s.tally n).use_ = 2 ∧
      (s.tally n).wrap = false ∧
      (s.tally n).value.toNat + 1 ≤ (s.tally n).limit.toNat) :=
  ⟨⟨sW10, cDoneR, by decide +kernel⟩,
   ⟨tl7, cDoneT, by decide +kernel⟩⟩

end ReservationsReadsAndTheEndOfAConsignment

namespace BatchesTimeoutsAndCopiesOfTiles

def slipP : Slip := { kind := 1, ntiles := 9, tsize := 3, window := 1, cdom := 3, sorting := some (0, 0), collating := true, ifmt := 1, ofmt := 1, count := 4, dests := [{ push := true, port := 1, daddr := 6 * 2^42, dstid := 0, pcid := 3, pcgen := 2, tileofs := 5 }, { push := false, port := 0, daddr := 512, dstid := 64, pcid := 0, pcgen := 0, tileofs := 0 }] }
def slip1d : Slip := { slipP with dests := [slipP.dests.getD 1 (slipP.dests.getD 0 { push := false, port := 0, daddr := 0, dstid := 0, pcid := 0, pcgen := 0, tileofs := 0 })] }
def bt : List Byte := (List.replicate 256 [(0 : Byte), 0x3f]).flatten
def sg1 : Staged := { data := bt }
def ti (ph : TilePhase) : Tile := { idx := 4, bay := 0, openedAt := 10, phase := ph, count := 1, acc := slipP.freshAcc }
def tA1 : Tile := { ti .open_ with staged := [sg1, { sg1 with short := true }], stagedAt := 4000 }
def tB1 : Tile := { ti .open_ with batches := [[sg1, sg1], [sg1]] }
def tP : Tile := { ti .posted with copies := [.waiting, .waiting], out := bt, doneAt := 400, status := 0, digest := 0 }
def t1c : Tile := { tP with copies := [.waiting] }
def tD : Tile := { tP with digest := 1 }
def con (z : Tile) (sl : Slip := slipP) : Con := { cid := 2, state := .active, cgen := 1, msg := asMsg { port := 0, hdr := hdr0 } 8 0, bytes := [], slip := sl, tiles := [{ ti .open_ with idx := 0 }, z, { ti .open_ with idx := 7 }], outcome := 0, ctns := 50000 , closed := [(1, 0)], map := q1.shelf.entries }
def slipW : Slip := { slipP with postmark := some (2^30, []) }
def stc (c : Con) : State := { q1 with cons := [{ c with cid := 5 }, c] }
def sW1 : State := stc (con tA1)
def conW2 : Con := con tA1
def sW3 : State := stc (con tB1)
def conW4 : Con := con tB1
def sW5 : State := stc (con tD slipW)
def conW6 : Con := con tD slipW
def sW7 : State := stc (con tP)
def conW8 : Con := con tP
def sW9 : State := stc (con t1c slip1d)
def conW10 : Con := con t1c slip1d
def sW11 : State := (stc (con tP)).setObj 0x2D00 0x13 1

theorem met_1 :
    (∃ (s : State) (c : Con) (i : Nat),
      s.con c.cid = some c ∧
      ∃ z ∈ c.tile? i,
      (∀ e ∈ c.closed, e.1 ≠ i) ∧
      s.unobserved = true ∧
      s.ops = [] ∧
      z.phase = .open_ ∧
      z.staged ≠ []) ∧
    (∃ (s : State) (c : Con) (i : Nat) (lane : Nat) (b : List Staged) (rest : List (List Staged)),
      s.con c.cid = some c ∧
      ∃ z ∈ c.tile? i,
      (∀ e ∈ c.closed, e.1 ≠ i) ∧
      s.unobserved = true ∧
      s.ops = [] ∧
      z.phase = .open_ ∧
      z.batches = b :: rest ∧
      s.fenced z.bay = false ∧
      (s.bay z.bay).repair.lanes.getLsbD lane = true ∧
      s.collMay z.bay = true ∧
      s.Inv ∧
      z.bay < s.size.bays ∧
      (s.bay z.bay).repair.lanes = 0x1F ∧
      s.determinism = false) ∧
    (∃ (s : State) (c : Con) (i : Nat),
      s.con c.cid = some c ∧
      ∃ z ∈ c.tile? i,
      (∀ e ∈ c.closed, e.1 ≠ i) ∧
      s.unobserved = true ∧
      s.ops = [] ∧
      c.slip.kind = 1 ∧
      z.phase = .open_ ∧
      s.obj 0x2E00 0x0E ≠ 2 ∧
      z.replayWait = [] ∧
      c.slip.dests ≠ []) ∧
    (∃ (s : State) (c : Con) (i : Nat),
      s.con c.cid = some c ∧
      ∃ z ∈ c.tile? i,
      (∀ e ∈ c.closed, e.1 ≠ i) ∧
      s.unobserved = true ∧
      s.ops = [] ∧
      ∃ q ∈ c.slip.postmark,
      let base := q.1
      z.phase = .posted ∧
      z.digest = 1 ∧
      s.waits = [] ∧
      .waiting ∈ z.copies ∧
      s.shelf.commit = none ∧
      (let a : Arrival := { port := 2 * z.bay, data := tileDigest c z, hdr := { tclass := c.msg.hdr.tclass, domain := c.msg.hdr.domain, addr := BitVec.ofNat 54 (base + 32 * i), len := 0 } }; misaligned a = false ∧ s.check75 a.hdr.addr.toNat 32 { domain := a.hdr.domain.toNat, tclass := clsOf a, write := true } ≠ stOk)) ∧
    (∃ (s : State) (c : Con) (i : Nat) (k : Nat),
      s.con c.cid = some c ∧
      ∃ z ∈ c.tile? i,
      (∀ e ∈ c.closed, e.1 ≠ i) ∧
      s.unobserved = true ∧
      s.ops = [] ∧
      z.phase = .posted ∧
      (z.digest = 0 ∨ z.digest = 3) ∧
      ∃ d ∈ c.slip.dests[k]?,
      z.copies[k]? = some .waiting ∧
      ∃ p ∈ s.pairPort d.port,
      z.status ≠ stShort ∧
      z.status ≠ stFenced ∧
      let data := padTo (ceilDiv z.out.length 64 * 64) z.out
      let q := s.port p
      let vc := if d.push then 2 else 3
      (∀ m ∈ q.outq, m.hdr.mclass.toNat ≠ vc) ∧
      flitsOf data ≤ q.credits.getD vc 0 ∧
      s.copyBehind c z k p d = false ∧
      (d.push = true → s.obj 0x2D00 0x13 ≠ 1) ∧
      (∃ j < 9, j ≠ k ∧ z.copies[j]? = some .waiting)) ∧
    (∃ (s : State), ∃ (c : Con), ∃ (i : Nat), ∃ z, ∃ (k : Nat), ∃ d, ∃ p, ∃ n,
      s.con c.cid = some c ∧
      c.tile? i = some z ∧
      s.unobserved = true ∧
      s.ops = [] ∧
      z.phase = .posted ∧
      (z.digest = 0 ∨ z.digest = 3) ∧
      c.slip.dests[k]? = some d ∧
      z.copies[k]? = some .waiting ∧
      s.pairPort d.port = some p ∧
      z.status ≠ stShort ∧
      z.status ≠ stFenced ∧
      let data := padTo (ceilDiv z.out.length 64 * 64) z.out
      let q := s.port p
      let vc := if d.push then 2 else 3
      (∀ m ∈ q.outq, m.hdr.mclass.toNat ≠ vc) ∧
      flitsOf data ≤ q.credits.getD vc 0 ∧
      s.copyBehind c z k p d = false ∧
      (d.push = true → s.obj 0x2D00 0x13 ≠ 1) ∧
      d.push = false ∧
      z.copies = [.waiting] ∧
      z.left = false ∧
      z.slot = true ∧
      c.slip.kind = 1 ∧
      c.state = .active ∧
      c.weightBad = false ∧
      c.slip.ttally = none ∧
      s.nextTile c z.bay = some n) :=
  ⟨⟨sW1, conW2, 4, by decide +kernel⟩,
   ⟨sW3, conW4, 4, 0, ([sg1, sg1]), ([[sg1]]), by decide +kernel⟩,
   ⟨sW1, conW2, 0, by decide +kernel⟩,
   ⟨sW5, conW6, 4, by decide +kernel⟩,
   ⟨sW7, conW8, 4, 0, by decide +kernel⟩,
   ⟨sW9, conW10, 4, t1c, 0, { push := false, port := 0, daddr := 512, dstid := 64, pcid := 0, pcgen := 0, tileofs := 0 }, 0, 2, by decide +kernel, by decide +kernel, by decide +kernel, by decide +kernel, by decide +kernel, by decide +kernel, by decide +kernel, by decide +kernel, by decide +kernel, by decide +kernel, by decide +kernel, by decide +kernel, by decide +kernel, by decide +kernel, by decide +kernel, by decide +kernel, by decide +kernel, by decide +kernel, by decide +kernel, by decide +kernel, by decide +kernel, by decide +kernel, by decide +kernel, by decide +kernel⟩⟩

theorem met_2 :
    (∃ (s : State) (c : Con) (i : Nat) (k : Nat),
      s.con c.cid = some c ∧
      ∃ z ∈ c.tile? i,
      (∀ e ∈ c.closed, e.1 ≠ i) ∧
      s.unobserved = true ∧
      s.ops = [] ∧
      z.phase = .posted ∧
      (z.digest = 0 ∨ z.digest = 3) ∧
      ∃ d ∈ c.slip.dests[k]?,
      d.push = true ∧
      z.copies[k]? = some .waiting ∧
      s.obj 0x2D00 0x13 = 1 ∧
      (∃ j < 9, j ≠ k ∧ z.copies[j]? = some .waiting)) ∧
    (∃ (s : State) (c : Con) (i : Nat) (k : Nat),
      s.con c.cid = some c ∧
      ∃ z ∈ c.tile? i,
      (∀ e ∈ c.closed, e.1 ≠ i) ∧
      s.unobserved = true ∧
      s.ops = [] ∧
      z.phase = .posted ∧
      ∃ x ∈ z.copies[k]?,
      x.over = false ∧
      (∃ j < 9, j ≠ k ∧ z.copies[j]? = some .waiting)) :=
  ⟨⟨sW11, conW8, 4, 0, by decide +kernel⟩,
   ⟨sW7, conW8, 4, 0, by decide +kernel⟩⟩

end BatchesTimeoutsAndCopiesOfTiles

namespace MetersGatesAndTimeOfDay

def fenA : Arrival := { port := 0, hdr := { hdr0 with opcode := 0x0C, tclass := 3 } }
def oF : Op := { id := 3, kind := .fence 0, msg := fenA, stage := .franking }
def mW : Meter := { key := .cls 3, tc := 5000000, tp := 6000000, at_ := 4000, slot := some 5200 }
def mset (s : State) : State := (((((s.setObj 0x2603 1 3).setObj 0x2603 6 1000).setObj 0x2603 7 10).setObj 0x2603 8 2000).setObj 0x2603 9 20).setObj 0x2080 1 1
def sF : State := mset { q1 with ops := [oF], nextId := 9, frank := { q1.frank with meters := [mW] } }
def lse : Lease := { bay := 0, key := .cls 3, green := 512, yellow := 30, used := 4500 }
def sL : State := mset { q1 with frank := { q1.frank with meters := [{ mW with slot := none }], leases := [lse] } }
def sG : State := ({ q1 with tod := { state := 1, offset := 100 }, table := { q1.table with oper := [(5, 300), (9, 700)], operBase := 4000, operCycle := 1000, changed := 5010, gates := 5 } }).setObj 0x2700 1 1
def sT : State := { q1 with tod := { state := 2, offset := 100 }, table := { q1.table with waiting := some (2100, 1000, [(5, 300), (9, 700)]), effect := 5100 } }

theorem met_1 :
    (∃ (s : State),
      (∀ m ∈ s.frank.meters, m.slot = none)) ∧
    (∃ (s : State) (o : Op) (m : Meter) (d : Nat),
      let c := clsOf o.msg
      let u := s.when d
      let q := max (s.obj 0x2080 1 * 1024) 64
      s.unobserved = true ∧
      s.frank.meters = [m] ∧
      m.key = .cls c ∧
      m.slot = some d ∧
      s.frank.leases = [] ∧
      s.ops = [o] ∧
      s.waits = [] ∧
      s.seqs = [] ∧
      o.kind = .fence 0 ∧
      o.stage = .franking ∧
      o.inPool = false ∧
      o.id < s.nextId ∧
      o.msg.hdr.opcode = 0x0C ∧
      o.msg.hdr.csg = false ∧
      o.msg.hdr.ord = false ∧
      o.msg.fkind = 0 ∧
      s.gateOpen c = true ∧
      s.unmetered (.cls c) = false ∧
      s.drops (.cls c) = false ∧
      0 ≤ (u.meter (.cls c)).tp ∧
      ((q * 1000 : Nat) : Int) ≤ (u.meter (.cls c)).tc ∧
      s.inService o.msg.port = true ∧
      s.canAnswer o.msg.port 1 = true) ∧
    (∃ (s : State) (b : Nat) (c : Nat) (l : Lease),
      s.setCounters = [] ∧
      s.frank.leases = [l] ∧
      l.key = .cls c ∧
      l.bay = b) ∧
    (∃ (s : State) (g0 : W64) (g1 : W64) (d0 : Nat) (d1 : Nat) (n : Nat) (x : Nat),
      s.unobserved = true ∧
      s.ops = [] ∧
      s.obj 0x2700 1 = 1 ∧
      s.tod.state ≠ 0 ∧
      s.table.oper = [(g0, d0), (g1, d1)] ∧
      0 < d0 ∧
      d0 < s.table.operCycle ∧
      x < d0 ∧
      s.table.changed = s.table.operBase + n * s.table.operCycle + x) ∧
    (∃ (s : State), ∃ (n : Nat), ∃ base, ∃ cycle, ∃ d, ∃ g, ∃ rest,
      let u := s.when ((s.table.effect : Int) - s.tod.offset).toNat
      s.unobserved = true ∧
      s.ops = [] ∧
      s.tod.state ≠ 0 ∧
      s.table.waiting = some (base, cycle, (g, d) :: rest) ∧
      0 < d ∧
      0 < cycle ∧
      u.netTime = s.table.effect ∧
      s.table.effect = base + n * cycle) ∧
    (∃ (s : State) (_net : Nat),
      s.unobserved = true ∧
      s.ops = [] ∧
      s.tod.state = 1) :=
  ⟨⟨q1, by decide +kernel⟩,
   ⟨sF, oF, mW, 5200, by decide +kernel⟩,
   ⟨sL, 0, 3, lse, by decide +kernel⟩,
   ⟨sG, 5, 9, 300, 700, 1, 10, by decide +kernel⟩,
   ⟨sT, 3, (2100), (1000), (300), (0x0000000000000005#64), ([(0x0000000000000009#64, 700)]), by decide +kernel⟩,
   ⟨sG, 0, by decide +kernel⟩⟩

theorem met_2 :
    ∃ (s : State) (_net : Nat),
      s.unobserved = true ∧
      s.ops = [] ∧
      s.table.oper = [] ∧
      s.table.waiting = none ∧
      (∀ e ∈ s.tal.tallies, e.2.armed = false) :=
  ⟨q1, 0, by decide +kernel⟩

end MetersGatesAndTimeOfDay

namespace CommitEndsAndMoveUnits

def mv : Entry := { e0 := BitVec.ofNat 64 (3 * 2^62 + 0xFF * 2^37 + 1), e1 := BitVec.allOnes 64, e2 := 0, e4 := BitVec.ofNat 64 (2^62 + 0xFF * 2^37 + 2), e5 := BitVec.allOnes 64, e6 := 2 }
def sM : State := { q1 with shelf := { q1.shelf with entries := [(0, mv)], valid := [0] }, mem := { q1.mem with stack := [(700, 3), (5000, 9)], marked := [0, 5000000] } }
def cm (l : List (Nat × Entry)) (d : Option (Nat × List Nat)) : Commit := { changes := l, validAt := 100, drain := d }
def stC (c : Commit) : State := { q1 with shelf := { q1.shelf with commit := some c } }
def cA := cm [] none
def cB := cm [] (some (200, [3, 4]))
def cC := cm [(5, { pent with e1 := BitVec.ofNat 64 1, e7 := 0 })] (some (200, []))
def m1 : Arrival := asMsg (rdA 128 1) 1 0
def oB : Op := { id := 3, kind := .rd, msg := m1, stage := .bay }
def sW1 : State := stC cA
def sW2 : State := { stC cB with ops := [oB] }
def sW3 : State := { stC cC with shelf := { (stC cC).shelf with valid := [5 * 4096, 5 * 4096 + 4095, 6 * 4096], isleCache := [(0, 40)], badLines := [3] } }
def entryW4 : Entry := { pent with e1 := BitVec.ofNat 64 1, e7 := 0 }

theorem met :
    (∃ (s : State),
      s.setCounters = [] ∧
      s.ops = [] ∧
      ∃ c ∈ s.shelf.commit,
      c.drain = none) ∧
    (∃ (s : State) (o : Op),
      s.setCounters = [] ∧
      ∃ c ∈ s.shelf.commit,
      ∃ q ∈ c.drain,
      let ids := q.2
      s.ops = [o] ∧
      o.id ∈ ids ∧
      o.stage = .bay) ∧
    (∃ (s : State) (i : Nat) (e : Entry),
      s.ops = [] ∧
      ∃ c ∈ s.shelf.commit,
      ∃ q ∈ c.drain,
      c.changes = [(i, e)] ∧
      s.determinism = false ∧
      s.guarSum = 0 ∧
      s.frank.gforce = [] ∧
      (∀ y ∈ s.bays, y.repair.withdrawing = 0) ∧
      popcount 24 e.bayset = 1 ∧
      (s.entry i).state = 0 ∧
      e.state = 1) ∧
    (∃ (s : State) (i : Nat),
      let e := s.entry i
      let unit := s.moveUnit i e.watermark
      let g0 := (i * 2 ^ 24 + e.watermark) / 32
      e.state = 3 ∧
      popcount 24 e.bayset = 1 ∧
      s.mayMove i = true ∧
      256 ∣ unit ∧
      e.watermark + unit < (s.layout i).cap ∧
      e.watermark + unit < 2 ^ 24 ∧
      (∀ g ∈ s.mem.marked, g < g0 ∨ g0 + unit / 32 ≤ g) ∧
      (∀ x ∈ s.mem.chk, x.1 < g0 ∨ g0 + unit / 32 ≤ x.1)) :=
  ⟨⟨sW1, by decide +kernel⟩,
   ⟨sW2, oB, by decide +kernel⟩,
   ⟨sW3, 5, entryW4, by decide +kernel⟩,
   ⟨sM, 0, by decide +kernel⟩⟩

end CommitEndsAndMoveUnits

namespace WaitersBarriersAndArmedTalliesInTime

def tq (n : Nat) (targ : Nat) : Arrival := asTly (tlA n targ) 8
def wA : Waiter := { id := 2, tally := 7, what := .ge 9, deadline := 5200, msg := tq 7 9 }
def wH (i : Nat) : Waiter := { id := i, tally := 7, what := .handover, deadline := 5200, msg := tq 7 9 }
def tt (l : List (Nat × Tally)) (w : List Waiter) : State := { q1 with tod := { state := 1, offset := 50 }, tal := { q1.tal with tallies := l, waiters := w, nextWaiter := 20 } }
def bar : Tally := { value := 3, state := 1, use_ := 1, releasing := true, limit := 3, shadow := 2, gen := 3 }
def arm (w : Bool) (u : Nat) (v : Nat) : Tally := { value := BitVec.ofNat 32 v, state := 1, use_ := BitVec.ofNat 2 u, limit := 3, armed := true, armAt := some 5300, wrap := w }
def sW1 : State := tt [] [wA, wH 3]
def sW2 : State := tt [(7, bar)] [wH 3, wH 4]
def sW3 : State := tt [(7, bar)] [wH 3]
def sW4 : State := { tt [(7, arm true 2 9)] [] with tod := {} }
def sW5 : State := tt [(3, arm false 0 2), (7, arm false 0 2)] []
def sW6 : State := (tt [(7, arm true 2 9)] [wA]).setObj 0x2E00 0x0E 2

theorem met :
    (∃ (s : State) (w : Waiter),
      s.unobserved = true ∧
      w.what ≠ .handover ∧
      (s.tal.waiters.find? fun x => x.id == w.id && x.what != .handover) = some w ∧
      w.msg.hdr.ord = false ∧
      s.inService w.msg.port = true ∧
      s.canAnswer w.msg.port 1 = true) ∧
    (∃ (s : State) (n : Nat) (w : Waiter) (ws : List Waiter),
      s.unobserved = true ∧
      (s.tally n).use_ = 1 ∧
      (s.tally n).releasing = true ∧
      w.tally = n ∧
      w.what = .handover ∧
      w.msg.hdr.ord = false ∧
      s.inService w.msg.port = true ∧
      s.canAnswer w.msg.port 1 = true ∧
      s.tal.waiters = w :: ws ∧
      (∃ x ∈ ws, x.tally = n ∧ x.what = .handover ∧ x.id ≠ w.id)) ∧
    (∃ (s : State) (n : Nat) (w : Waiter),
      s.unobserved = true ∧
      (s.tally n).use_ = 1 ∧
      (s.tally n).releasing = true ∧
      w.tally = n ∧
      w.what = .handover ∧
      w.msg.hdr.ord = false ∧
      s.inService w.msg.port = true ∧
      s.canAnswer w.msg.port 1 = true ∧
      s.tal.waiters = [w] ∧
      (s.tally n).shadow ≠ (s.tally n).limit) ∧
    (∃ (s : State) (n : Nat) (at_ : Nat),
      s.unobserved = true ∧
      (s.tally n).armed = true ∧
      (s.tally n).armAt = some at_ ∧
      s.tod.state = 0) ∧
    (∃ (s : State) (n : Nat) (at_ : Nat),
      s.unobserved = true ∧
      (s.tally n).armed = true ∧
      (s.tally n).armAt = some at_ ∧
      s.tod.state = 1 ∧
      s.pausing = false ∧
      s.tallyWaiters n = [] ∧
      (s.tally n).use_ ≠ 1 ∧
      (s.tally n).late = false ∧
      (s.tally n).wrap = true ∨ (s.tally n).value.toNat + 1 ≤ (s.tally n).limit.toNat) ∧
    (∃ (s : State) (n : Nat) (at_ : Nat),
      s.unobserved = true ∧
      (s.tally n).armed = true ∧
      (s.tally n).armAt = some at_ ∧
      s.tod.state ≠ 0 ∧
      s.pausing = true) :=
  ⟨⟨sW1, wA, by decide +kernel⟩,
   ⟨sW2, 7, (wH 3), ([wH 4]), by decide +kernel⟩,
   ⟨sW3, 7, (wH 3), by decide +kernel⟩,
   ⟨sW4, 7, 5300, by decide +kernel⟩,
   ⟨sW5, 3, 5300, by decide +kernel⟩,
   ⟨sW6, 7, 5300, by decide +kernel⟩⟩

end WaitersBarriersAndArmedTalliesInTime

namespace TwinsTubeAndGovernor

def tw (f : Twins → Twins) : State := { q0 with twins := f q0.twins }
def ha : Arrival := asMsg (rdA 0 0) 1 0
def sW1 : State := tw fun t => { t with state := 1 }
def sW2 : State := tw fun t => { t with state := 2, rejoin := 1 }
def sW3 : State := tw fun t => { t with state := 3 }
def sW4 : State := { q1 with twins := { q1.twins with disputed := true, held := [.msg ha (answerHdr ha 0x22 3) (zeros 64)] } }
def sW5 : State := tw fun t => { t with disputed := true }
def sW6 : State := tw fun t => { t with state := 1, rejoin := 3 }
def sW7 : State := tw fun t => { t with links := 5, hubs := [205], rejoin := 2, state := 2 }

theorem met_1 :
    (∃ (s : State) (_n : Nat),
      s.silent = true ∧
      s.determinism = false ∧
      s.twins.state = 0 ∧
      s.twins.held = []) ∧
    (∃ (s : State) (n : Nat),
      s.idle = true ∧
      s.boot.code ≠ 0x31 ∧
      s.twins.state = n % 2 + 1) ∧
    (∃ (s : State) (n : Nat),
      s.twins.state = 2 - n % 2 ∧
      s.twins.rejoin ≠ 0) ∧
    (∃ (s : State) (_n : Nat),
      s.twins.state = 3) ∧
    (∃ (s : State),
      s.twins.state = 0) ∧
    (∃ (s : State),
      s.twins.state ≠ 0) :=
  ⟨⟨q0, 0, by decide +kernel⟩,
   ⟨sW1, 0, by decide +kernel⟩,
   ⟨sW2, 0, by decide +kernel⟩,
   ⟨sW3, 0, by decide +kernel⟩,
   ⟨sW4, by decide +kernel⟩,
   ⟨sW1, by decide +kernel⟩⟩

theorem met_2 :
    (∃ (s : State),
      s.twins.disputed = true ∧
      s.twins.held = []) ∧
    (∃ (s : State) (a : Arrival) (h : Hdr) (data : List Byte),
      s.twins.disputed = true ∧
      let u : State := { s with twins := { s.twins with disputed := false, held := [] } }
      s.twins.held = [.msg a h data] ∧
      s.unobserved = true ∧
      s.inService a.port = true ∧
      h.mclass = 1 ∧
      u.canAnswer a.port (flitsOf data) = true) ∧
    (∃ (s : State),
      s.twins.disputed = true ∧
      s.idle = true ∧
      s.boot.code ≠ 0x31 ∧
      s.twins.held = []) ∧
    (∃ (s : State) (_ok : Bool),
      s.twins.disputed = false) ∧
    (∃ (s : State),
      s.twins.rejoin ≠ 0 ∧
      s.stopped = false) ∧
    (∃ (s : State),
      (s.twins.rejoin = 1 ∨ s.twins.rejoin = 2) ∧
      s.stopped = false) :=
  ⟨⟨sW5, by decide +kernel⟩,
   ⟨sW4, ha, (answerHdr ha 0x22 3), (zeros 64), by decide +kernel⟩,
   ⟨sW5, by decide +kernel⟩,
   ⟨q0, false, by decide +kernel⟩,
   ⟨sW2, by decide +kernel⟩,
   ⟨sW2, by decide +kernel⟩⟩

theorem met_3 :
    (∃ (s : State),
      s.twins.rejoin = 3 ∧
      s.stopped = false) ∧
    (∃ (s : State) (l : Nat),
      l ∈ s.size.links ∧
      s.silent = true ∧
      s.determinism = false ∧
      s.twins.links.getLsbD l = true) ∧
    (∃ (s : State) (l : Nat),
      l ∈ s.size.links ∧
      s.silent = true ∧
      s.determinism = false ∧
      s.twins.links.getLsbD l = false) ∧
    (∃ (s : State) (i : Nat),
      204 ≤ i ∧
      i < 216 ∧
      s.silent = true ∧
      s.determinism = false) ∧
    (∃ (s : State) (b : Nat),
      s.Inv ∧
      b < s.size.bays ∧
      s.idle = true ∧
      s.fenced b = false) ∧
    (∃ (s : State) (l : List Nat) (rt : Nat) (other : Nat) (coll : Nat),
      let p := sumN l + rt + other + coll
      let env := s.obj 0x2020 1
      let caps := s.capsNow
      let base := (sumN l + rt) * 100
      let carrel := if caps.1 < 1000 then 38000 - rt * 100 else other * 100
      let lanes := if caps.2 < 1000 then 7500 else coll * 100
      s.silent = true ∧
      s.determinism = false ∧
      base + carrel + lanes ≤ env * 100 ∧
      p * 100 ≤ env * 105) :=
  ⟨⟨sW6, by decide +kernel⟩,
   ⟨sW7, 0, by decide +kernel⟩,
   ⟨sW4, 0, by decide +kernel⟩,
   ⟨sW4, 204, by decide +kernel⟩,
   ⟨q0, 0, by decide +kernel⟩,
   ⟨sW4, ([]), 0, 0, 0, by decide +kernel⟩⟩

theorem met_4 :
    (∃ (s : State) (l : List Nat) (rt : Nat) (other : Nat) (coll : Nat),
      let p := sumN l + rt + other + coll
      let env := s.obj 0x2020 1
      let caps := s.capsNow
      let base := (sumN l + rt) * 100
      let carrel := if caps.1 < 1000 then 38000 - rt * 100 else other * 100
      let lanes := if caps.2 < 1000 then 7500 else coll * 100
      s.silent = true ∧
      s.determinism = false ∧
      p * 100 ≤ env * 105 ∧
      env * 100 < base + carrel + lanes ∧
      base + lanes + 9500 < env * 100) ∧
    (∃ (s : State) (l : List Nat) (rt : Nat) (other : Nat) (coll : Nat),
      let p := sumN l + rt + other + coll
      let env := s.obj 0x2020 1
      s.silent = true ∧
      s.determinism = false ∧
      env * 105 < p * 100) :=
  ⟨⟨sW4, ([]), 0, 300, 350, by decide +kernel⟩,
   ⟨sW4, ([]), 0, 0, 700, by decide +kernel⟩⟩

end TwinsTubeAndGovernor

namespace RailsClockPinsAndReset

def b0 (f : Boot → Boot) (s : State := q0) : State := { s with boot := f s.boot }
def sW1 : State := { q0 with wire := [.tdo []], keys := [(1, 1)], pending := [.rstdaa] }
def sW2 : State := b0 fun b => { b with brst := false, held := true, code := 1 }
def sW3 : State := b0 fun b => { b with pendingImage := some [5], railBad := [(4, .vcar)], refclk := false, refLostAt := 4000 }

theorem met_1 :
    (∃ (s : State) (_id : Nat) (_rates : Nat) (_i3c : Nat),
      s.boot.brst = true) ∧
    (∃ (s : State) (_id : Nat) (_rates : Nat) (_i3c : Nat),
      s.boot.brst = false) ∧
    (∃ (s : State) (_v : Bool),
      (s.boot.held = true ∨ s.boot.step = 1)) ∧
    (∃ (s : State) (_v : Bool),
      s.boot.held = false ∧
      s.boot.step ≠ 1) ∧
    (∃ (s : State) (b : Nat) (rail : BayRail),
      b < s.size.bays ∧
      (b, rail) ∉ s.boot.railBad ∧
      (s.boot.held = true ∨ s.boot.step = 1)) ∧
    (∃ (s : State) (b : Nat) (rail : BayRail),
      b < s.size.bays ∧
      (b, rail) ∉ s.boot.railBad ∧
      s.Inv ∧
      s.boot.held = false ∧
      s.boot.step ≠ 1 ∧
      s.idle = true ∧
      s.fenced b = false ∧
      (rail = .vddb → s.inService (2 * b) = false ∧ s.inService (2 * b + 1) = false)) :=
  ⟨⟨sW1, 0, 0, 0, by decide +kernel⟩,
   ⟨sW2, 0, 0, 0, by decide +kernel⟩,
   ⟨sW2, false, by decide +kernel⟩,
   ⟨sW1, false, by decide +kernel⟩,
   ⟨sW2, 0, .vddb, by decide +kernel⟩,
   ⟨sW1, 0, .vddp, by decide +kernel⟩⟩

theorem met_2 :
    (∃ (s : State),
      s.boot.refclk = true) ∧
    (∃ (s : State),
      s.boot.refclk = false ∧
      s.idle = true ∧
      s.boot.code = 0x20) ∧
    (∃ (s : State),
      let later := s.boot.held = false ∧ s.boot.code ∈ [3, 4, 5, 6, 7, 8, 9, 0x0A, 0x0B, 0x11, 0x12, 0x20]
      ¬ later) ∧
    (∃ (s : State),
      let later := s.boot.held = false ∧ s.boot.code ∈ [3, 4, 5, 6, 7, 8, 9, 0x0A, 0x0B, 0x11, 0x12, 0x20]
      later ∧
      s.idle = true) :=
  ⟨⟨sW1, by decide +kernel⟩,
   ⟨sW3, by decide +kernel⟩,
   ⟨sW2, by decide +kernel⟩,
   ⟨sW1, by decide +kernel⟩⟩

end RailsClockPinsAndReset

namespace BringUpStepsAndTheirTimeouts

def bb (n : Nat) (k : Nat := n) : State := { ({} : State) with boot := { ({} : State).boot with code := n, step := k, held := false, brst := true, t0 := 100, stepAt := 2000000 }, now := 3000000 }
def bq0 (n : Nat) (k : Nat := n) : State := (bb n k).setObj 0x2090 2 0
def sW1 : State := bq0 1
def sW2 : State := bq0 2
def sW3 : State := (bq0 3).setObj 0x2010 1 9
def sW4 : State := bq0 3
def sW5 : State := bq0 4
def sW6 : State := bq0 5
def sW7 : State := bq0 6
def sW8 : State := { bq0 7 with bays := (bq0 7).bays.mapIdx fun i (y : Bay) => if i = 3 then { y with repair := { y.repair with state := 2, capacity := 128 } } else { y with repair := { y.repair with fence := 1 } } }
def sW9 : State := bq0 8
def sW10 : State := bq0 9
def sW11 : State := ((bq0 9).modBay 3 fun y => { y with repair := { y.repair with fence := 1 } }).modBay 15 fun y => { y with repair := { y.repair with fence := 1 } }
def sW12 : State := bq0 10
def sW13 : State := bq0 11
def sW14 : State := bq0 0x11 5
def sW15 : State := bq0 0x12 10
def sW16 : State := (bq0 6).modBay 3 fun y => { y with therm := { y.therm with comps := y.therm.comps.set 2 2 } }

theorem met_1 :
    (∃ (s : State) (r : StepReport),
      s.boot.held = false ∧
      s.boot.step = s.boot.code ∧
      (∃ b < s.size.bays, s.fenced b = false) ∧
      s.boot.code = 1 ∧
      s.boot.vaux = true ∧
      s.boot.vddr = true ∧
      s.boot.railBad = [] ∧
      s.startRefused = false ∧
      railsBad r.rails = true) ∧
    (∃ (s : State) (r : StepReport),
      s.boot.held = false ∧
      s.boot.step = s.boot.code ∧
      (∃ b < s.size.bays, s.fenced b = false) ∧
      s.boot.code = 1 ∧
      s.boot.vaux = true ∧
      s.boot.vddr = true ∧
      s.boot.railBad = [] ∧
      s.startRefused = false ∧
      railsBad r.rails = false ∧
      baysLate r.rails = []) ∧
    (∃ (s : State) (r : StepReport),
      s.boot.held = false ∧
      s.boot.step = s.boot.code ∧
      (∃ b < s.size.bays, s.fenced b = false) ∧
      s.boot.code = 2 ∧
      let good := s.boot.refclk = true ∧ 99500000 ≤ r.refclkHz ∧ r.refclkHz ≤ 100500000
      good) ∧
    (∃ (s : State) (r : StepReport),
      s.boot.held = false ∧
      s.boot.step = s.boot.code ∧
      (∃ b < s.size.bays, s.fenced b = false) ∧
      s.boot.code = 2 ∧
      let good := s.boot.refclk = true ∧ 99500000 ≤ r.refclkHz ∧ r.refclkHz ≤ 100500000
      ¬ good) ∧
    (∃ (s : State) (_r : StepReport),
      s.boot.held = false ∧
      s.boot.step = s.boot.code ∧
      (∃ b < s.size.bays, s.fenced b = false) ∧
      s.boot.code = 3 ∧
      s.planRefused = true) ∧
    (∃ (s : State) (r : StepReport),
      s.boot.held = false ∧
      s.boot.step = s.boot.code ∧
      (∃ b < s.size.bays, s.fenced b = false) ∧
      s.boot.code = 3 ∧
      s.planRefused = false ∧
      r.islandsDown = [] ∧
      s.twins.links = 0 ∧
      s.twins.hubs = []) :=
  ⟨⟨sW1, ({ rails := [(.vaux, 100), (.vddr, 60000)] }), by decide +kernel⟩,
   ⟨sW1, ({ refclkHz := 100000000 }), by decide +kernel⟩,
   ⟨sW2, ({ rails := [(.vaux, 100), (.vddr, 60000)] }), by decide +kernel⟩,
   ⟨sW2, ({ refclkHz := 99499999 }), by decide +kernel⟩,
   ⟨sW3, ({ rails := [(.vaux, 100), (.vddr, 60000)] }), by decide +kernel⟩,
   ⟨sW4, ({ rails := [(.vaux, 100), (.vddr, 60000)] }), by decide +kernel⟩⟩

theorem met_2 :
    (∃ (s : State) (r : StepReport),
      s.boot.held = false ∧
      s.boot.step = s.boot.code ∧
      (∃ b < s.size.bays, s.fenced b = false) ∧
      s.boot.code = 4 ∧
      s.boot.pendingImage = none ∧
      r.twinDown = 0) ∧
    (∃ (s : State) (r : StepReport),
      s.boot.held = false ∧
      s.boot.step = s.boot.code ∧
      (∃ b < s.size.bays, s.fenced b = false) ∧
      s.boot.code = 4 ∧
      s.boot.pendingImage = none ∧
      (r.twinDown = 1 ∨ r.twinDown = 2) ∧
      s.twins.state = 0) ∧
    (∃ (s : State) (r : StepReport),
      s.boot.held = false ∧
      s.boot.step = s.boot.code ∧
      (∃ b < s.size.bays, s.fenced b = false) ∧
      s.boot.code = 4 ∧
      s.boot.pendingImage = none ∧
      r.twinDown = 3) ∧
    (∃ (s : State) (_r : StepReport),
      s.boot.held = false ∧
      s.boot.step = s.boot.code ∧
      (∃ b < s.size.bays, s.fenced b = false) ∧
      s.boot.code = 5 ∧
      s.Inv ∧
      s.silent = true ∧
      imageReason s.boot.image ≠ 0) ∧
    (∃ (s : State) (r : StepReport),
      s.boot.held = false ∧
      s.boot.step = s.boot.code ∧
      (∃ b < s.size.bays, s.fenced b = false) ∧
      s.boot.code = 6 ∧
      s.Inv ∧
      r.stackDead = [] ∧
      r.stackBad = [] ∧
      r.capacity = [] ∧
      r.spares = [] ∧
      s.coldWait = false) ∧
    (∃ (s : State) (r : StepReport),
      s.boot.held = false ∧
      s.boot.step = s.boot.code ∧
      (∃ b < s.size.bays, s.fenced b = false) ∧
      s.boot.code = 7 ∧
      s.Inv ∧
      r.sweeps = [] ∧
      s.obj 0x2000 8 % 2 = 0 ∧
      s.obj 0x2B00 3 ≤ 128 ∧
      (∀ y ∈ s.bays, popcount 64 y.repair.pcsOut.toNat ≤ 4)) :=
  ⟨⟨sW5, ({ rails := [(.vaux, 100), (.vddr, 60000)] }), by decide +kernel⟩,
   ⟨sW5, ({ twinDown := 1 }), by decide +kernel⟩,
   ⟨sW5, ({ twinDown := 3, refclkHz := 100500000 }), by decide +kernel⟩,
   ⟨sW6, ({ rails := [(.vaux, 100), (.vddr, 60000)] }), by decide +kernel⟩,
   ⟨sW7, ({ rails := [(.vaux, 100), (.vddr, 60000)] }), by decide +kernel⟩,
   ⟨sW8, ({ rails := [(.vaux, 100), (.vddr, 60000)] }), by decide +kernel⟩⟩

theorem met_3 :
    (∃ (s : State) (r : StepReport),
      s.boot.held = false ∧
      s.boot.step = s.boot.code ∧
      (∃ b < s.size.bays, s.fenced b = false) ∧
      s.boot.code = 8 ∧
      s.Inv ∧
      r.carrelDead = [] ∧
      r.carrelUncal = [] ∧
      r.carrelClosed = [] ∧
      (∀ y ∈ s.bays, y.train.carrelErased.length ≤ 4)) ∧
    (∃ (s : State) (r : StepReport),
      s.boot.held = false ∧
      s.boot.step = s.boot.code ∧
      (∃ b < s.size.bays, s.fenced b = false) ∧
      s.boot.code = 9 ∧
      s.Inv ∧
      r.storeBad = [] ∧
      let half := s.size.bays / 2
      (∀ b < half, s.fenced b = false ∨ s.fenced (b + half) = false)) ∧
    (∃ (s : State) (r : StepReport) (b : Nat),
      s.boot.held = false ∧
      s.boot.step = s.boot.code ∧
      (∃ b < s.size.bays, s.fenced b = false) ∧
      s.boot.code = 9 ∧
      s.Inv ∧
      r.storeBad = [] ∧
      let half := s.size.bays / 2
      b < half ∧
      s.fenced b = true ∧
      s.fenced (b + half) = true ∧
      (∀ d < b, s.fenced d = false ∨ s.fenced (d + half) = false)) ∧
    (∃ (s : State) (_r : StepReport),
      s.boot.held = false ∧
      s.boot.step = s.boot.code ∧
      (∃ b < s.size.bays, s.fenced b = false) ∧
      s.boot.code = 0x0A) ∧
    (∃ (s : State) (_r : StepReport),
      s.boot.held = false ∧
      s.boot.step = s.boot.code ∧
      (∃ b < s.size.bays, s.fenced b = false) ∧
      s.boot.code = 0x0B ∧
      s.Inv ∧
      s.obj 0x2E00 1 ≠ 1) ∧
    (∃ (s : State) (n : Nat) (us : Nat),
      s.setCounters = [] ∧
      s.boot.held = false ∧
      s.coldWait = false ∧
      s.boot.code = n ∧
      s.boot.step = n ∧
      (n, us) ∈ [(1, 200000), (2, 10000), (3, 10000), (4, 20000), (5, 50000), (6, 100000), (7, 100000), (8, 30000), (9, 50000), (11, 1)] ∧
      (n = 1 → s.boot.vaux = true ∧ s.boot.vddr = true ∧ s.boot.railBad = [] ∧ s.startRefused = false) ∧
      (n = 2 → s.boot.refclk = true)) :=
  ⟨⟨sW9, ({ rails := [(.vaux, 100), (.vddr, 60000)] }), by decide +kernel⟩,
   ⟨sW10, ({ rails := [(.vaux, 100), (.vddr, 60000)] }), by decide +kernel⟩,
   ⟨sW11, ({ rails := [(.vaux, 100), (.vddr, 60000)] }), 3, by decide +kernel⟩,
   ⟨sW12, ({ rails := [(.vaux, 100), (.vddr, 60000)] }), by decide +kernel⟩,
   ⟨sW13, ({ rails := [(.vaux, 100), (.vddr, 60000)] }), by decide +kernel⟩,
   ⟨sW1, 1, 200000, by decide +kernel⟩⟩

theorem met_4 :
    (∃ (s : State),
      s.setCounters = [] ∧
      s.boot.held = false ∧
      s.boot.code = 0x11) ∧
    (∃ (s : State),
      s.setCounters = [] ∧
      s.boot.held = false ∧
      s.boot.code = 0x12) ∧
    (∃ (s : State),
      s.setCounters = [] ∧
      s.boot.held = false ∧
      s.coldWait = true) :=
  ⟨⟨sW14, by decide +kernel⟩,
   ⟨sW15, by decide +kernel⟩,
   ⟨sW16, by decide +kernel⟩⟩

end BringUpStepsAndTheirTimeouts

namespace CalibrationInTime

def dirC : SweepDir := { dly := List.replicate 5 64, dsk := List.replicate 36 3, wid := List.replicate 5 40, closed := [] }
def sB (f : Bay → Bay) (s : State := q0) : State := s.modBay 3 f
def tr (f : Training → Training) (s : State := q0) : State := sB (fun y => { y with train := f y.train }) s
def run0 : CalRun := { pc := 5, began := 4000 }
def runL : CalRun := { pc := 5, began := 4000, windows := 255, counts := List.replicate 255 [] }
def runX : CalRun := { pc := 5, began := 4000, windows := 255 }
def rec5 : Nat := (runRecord 7 2 0 20 dirC dirC).toNat
def slg : Slew := { pc := 5, cur := (recPoints rec5).map fun x => (x.1 - 3, x.2 + 1), goal := recPoints rec5, at_ := 4000 }
def sFull : State := tr (fun t => { t with window := some (5, 4500), runs := [runL], slews := [slg] }) (q0.putRec 3 5 0 (BitVec.ofNat 512 rec5))
def fullDir : SweepDir := { dly := List.replicate 5 63, dsk := List.replicate 36 0, wid := List.replicate 5 128, closed := [] }
def fullLane : LaneCounts := { rd := List.replicate 128 4096, wr := List.replicate 128 4096 }
theorem fullEye : findEye 24 (fullCounts 128 (List.replicate 128 4096)) = ⟨0, 127, false⟩ := by decide +kernel
theorem fullSweep : sweepDir 24 (List.replicate 36 (List.replicate 128 4096)) = fullDir := by
  have e : (List.range 36).map (fun i => findEye 24 (fullCounts 128 ((List.replicate 36 (List.replicate 128 4096)).getD i []))) =
      List.replicate 36 ⟨0, 127, false⟩ := by
    rw [List.map_congr_left (g := fun _ => ⟨0, 127, false⟩)]
    · decide +kernel
    · intro i hi
      have hi := List.mem_range.1 hi
      rw [List.getD_eq_getElem?_getD, List.getElem?_replicate, if_pos hi, Option.getD_some, fullEye]
  unfold sweepDir
  rw [e]
  decide +kernel
theorem fullLanes : runSweeps (List.replicate 256 []) = (List.replicate 36 fullLane, List.replicate 36 fullLane) := by
  unfold runSweeps
  simp only [List.take_replicate, List.drop_replicate, List.map_replicate, List.getD_nil]
  rfl
theorem fullDirs (f : LaneCounts → List Nat) (h : f fullLane = List.replicate 128 4096) :
    sweepDir 24 ((List.range 36).map fun i => f ((List.replicate 36 fullLane).getD i {})) = fullDir := by
  rw [List.map_congr_left (g := fun _ => List.replicate 128 4096)]
  · rw [List.map_const', List.length_range, fullSweep]
  · intro i hi
    rw [List.getD_eq_getElem?_getD, List.getElem?_replicate, if_pos (List.mem_range.1 hi), Option.getD_some, h]
theorem fullRun : decideRun 24 (runSweeps (List.replicate 256 [])) = some (fullDir, fullDir) := by
  rw [fullLanes]
  simp only [decideRun]
  rw [fullDirs (fun c => c.rd) rfl, fullDirs (fun c => c.wr) rfl]
  decide +kernel
theorem sweepsFull : decideRun (sFull.obj 0x2B00 3) (runSweeps (runL.counts ++ [[]])) = some (fullDir, fullDir) := by
  have h1 : sFull.obj 0x2B00 3 = 24 := by decide +kernel
  have h2 : runL.counts ++ [[]] = List.replicate 256 [] := by decide +kernel
  rw [h1, h2, fullRun]
def sW1 : State := tr fun t => { t with requested := [5] }
def sW2 : State := tr fun t => { t with window := some (5, 4500), runs := [run0] }
def sW3 : State := tr fun t => { t with window := some (5, 4500), runs := [runX] }
def sW4 : State := tr (fun t => { t with slews := [slg] }) (q0.putRec 3 5 0 (BitVec.ofNat 512 rec5))

theorem met_1 :
    (∃ (s : State) (b : Nat) (pc : Nat),
      s.Inv ∧
      b < s.size.bays ∧
      s.setCounters = [] ∧
      let x := (s.bay b).train
      s.boot.code = 0x20 ∧
      s.fenced b = false ∧
      s.pcInService b pc = true ∧
      pc ∉ x.requested ∧
      (∀ r ∈ x.runs, r.pc ≠ pc)) ∧
    (∃ (s : State) (b : Nat) (pc : Nat),
      s.Inv ∧
      b < s.size.bays ∧
      s.setCounters = [] ∧
      let x := (s.bay b).train
      s.boot.code = 0x20 ∧
      s.fenced b = false ∧
      s.pcInService b pc = true ∧
      pc ∈ x.requested) ∧
    (∃ (s : State) (b : Nat) (pc : Nat),
      s.Inv ∧
      b < s.size.bays ∧
      s.setCounters = [] ∧
      (s.boot.code ≠ 0x20 ∨ s.fenced b = true ∨ s.pcInService b pc = false)) ∧
    (∃ (s : State) (pc : Nat) (j : Nat),
      let b := (s.twins.nextGrant + j) % s.size.bays
      s.Inv ∧
      s.setCounters = [] ∧
      s.determinism = false ∧
      j < s.size.bays ∧
      (∀ r ∈ (s.bay b).train.runs, r.pc ≠ pc) ∧
      s.mayRetrain b pc = false) ∧
    (∃ (s : State) (pc : Nat) (j : Nat),
      let b := (s.twins.nextGrant + j) % s.size.bays
      s.Inv ∧
      s.setCounters = [] ∧
      s.determinism = false ∧
      j < s.size.bays ∧
      (∀ r ∈ (s.bay b).train.runs, r.pc ≠ pc) ∧
      s.mayRetrain b pc = true ∧
      s.windowsOpen < 4 ∧
      (∀ i < j, ∀ q < 64, s.mayRetrain ((s.twins.nextGrant + i) % s.size.bays) q = false) ∧
      (s.lanes b pc).erased = []) ∧
    (∃ (s : State) (b : Nat) (r : CalRun) (t0 : Nat) (_counts : List (Nat × Nat)),
      let x := (s.bay b).train
      let pc := r.pc
      s.Inv ∧
      b < s.size.bays ∧
      s.setCounters = [] ∧
      x.window = some (pc, t0) ∧
      x.runs = [r] ∧
      r.windows + 1 < 256) :=
  ⟨⟨q0, 0, 0, by decide +kernel⟩,
   ⟨sW1, 3, 5, by decide +kernel⟩,
   ⟨q0, 0, 4500, by decide +kernel⟩,
   ⟨q0, 0, 0, by decide +kernel⟩,
   ⟨sW1, 5, 3, by decide +kernel⟩,
   ⟨sW2, 3, run0, 4500, ([]), by decide +kernel⟩⟩

theorem met_2 :
    (∃ (s : State) (b : Nat) (r : CalRun) (t0 : Nat) (counts : List (Nat × Nat)),
      let x := (s.bay b).train
      let pc := r.pc
      let sweeps := decideRun (s.obj 0x2B00 3) (runSweeps (r.counts ++ [counts]))
      s.Inv ∧
      b < s.size.bays ∧
      s.setCounters = [] ∧
      x.window = some (pc, t0) ∧
      x.runs = [r] ∧
      r.windows = 255 ∧
      r.tries < 3 ∧
      sweeps = none) ∧
    (∃ (s : State), ∃ (b : Nat), ∃ (r : CalRun), ∃ (t0 : Nat), ∃ (counts : List (Nat × Nat)), ∃ rd, ∃ wr,
      let x := (s.bay b).train
      let pc := r.pc
      let sweeps := decideRun (s.obj 0x2B00 3) (runSweeps (r.counts ++ [counts]))
      s.Inv ∧
      b < s.size.bays ∧
      s.setCounters = [] ∧
      x.window = some (pc, t0) ∧
      x.runs = [r] ∧
      r.windows = 255 ∧
      rd.closed = [] ∧
      wr.closed = [] ∧
      s.test.jostleAt = none ∧
      (s.bay b).sched.point ≤ 2 ∧
      pc < 64 ∧
      sweeps = some (rd, wr)) ∧
    (∃ (s : State) (b : Nat) (r : CalRun) (t0 : Nat) (_counts : List (Nat × Nat)),
      let x := (s.bay b).train
      let pc := r.pc
      s.Inv ∧
      b < s.size.bays ∧
      s.setCounters = [] ∧
      x.window = some (pc, t0) ∧
      x.runs = [r] ∧
      s.pcInService b pc = true) ∧
    (∃ (s : State) (b : Nat) (x : Slew),
      s.Inv ∧
      b < s.size.bays ∧
      s.setCounters = [] ∧
      s.test.jostleAt = none ∧
      ((s.bay b).train.slews.find? fun y => y.pc == x.pc) = some x ∧
      s.inWindow b x.pc = false ∧
      x.goal = recPoints (s.calRec b x.pc (s.setInUse b)) ∧
      x.cur ≠ x.goal) :=
  ⟨⟨sW3, 3, runX, 4500, ([]), by decide +kernel⟩,
   ⟨sFull, 3, runL, 4500, ([]), fullDir, fullDir, by decide +kernel, by decide +kernel, by decide +kernel, by decide +kernel, by decide +kernel, by decide +kernel, by decide +kernel, by decide +kernel, by decide +kernel, by decide +kernel, by decide +kernel, sweepsFull⟩,
   ⟨sW3, 3, runX, 4500, ([]), by decide +kernel⟩,
   ⟨sW4, 3, slg, by decide +kernel⟩⟩

end CalibrationInTime

namespace ShiftsAndSwapsInTurn

def dirC : SweepDir := { dly := List.replicate 5 64, dsk := List.replicate 36 3, wid := List.replicate 5 40, closed := [] }
def rec (set : Nat) : BitVec 512 := runRecord 7 1 set 20 dirC dirC
def sB (f : Bay → Bay) (s : State := q0) (b := 3) : State := s.modBay b f
def sc (f : Sched → Sched) (s : State := q0) (b := 3) : State := sB (fun y => { y with sched := f y.sched }) s b
def allRec (s : State) (set : Nat) : State := (List.range 64).foldl (fun t pc => t.putRec 3 pc set (rec set)) s
def aw := sc fun y => { y with shift := .awaiting, shiftAt := 4000, want := some 1 }
def sW1 : State := (sc (fun y => { y with pcs := [{ pc := 5, burst := true }] }) aw).setObj 0x2103 0x0D 5
def sW2 : State := (sc (fun y => { y with pcs := [{ pc := 5, burst := true }], swapWanted := true }) aw).setObj 0x2103 0x0D 5
def sW3 : State := sc (fun y => { y with shift := .shifting, shadow := 2, grantedAt := 4500, banks := [{ pc := 5, bank := 1, owed := 4, row := some 3 }], want := some 1 }) (allRec q0 2)

theorem met_1 :
    (∃ (s : State) (b : Nat),
      let y := (s.bay b).sched
      let d := y.shiftAt + s.obj (0x2100 + b) 0x0D * 1000
      s.setCounters = [] ∧
      y.shift = .awaiting ∧
      y.swapWanted = false ∧
      (s.bay b).train.anyRun = false ∧
      (∃ p ∈ y.pcs, p.burst = true) ∧
      s.now < d) ∧
    (∃ (s : State) (b : Nat),
      let y := (s.bay b).sched
      let d := y.shiftAt + s.obj (0x2100 + b) 0x0D * 1000
      s.setCounters = [] ∧
      (y.shift ≠ .awaiting ∨ y.swapWanted = true ∨ (∀ p ∈ y.pcs, p.burst = false) ∨ d ≤ s.now)) ∧
    (∃ (s : State) (b : Nat),
      s.Inv ∧
      b < s.size.bays ∧
      let few := (s.bays.filter fun y => y.sched.moving).length < 2
      let shift := few ∧ (∀ c < s.size.bays, s.seeks c true = false) ∧ s.seeks b false = true ∧ ∀ c < b, s.seeks c false = false
      shift) ∧
    (∃ (s : State) (b : Nat),
      s.Inv ∧
      b < s.size.bays ∧
      let few := (s.bays.filter fun y => y.sched.moving).length < 2
      let shift := few ∧ (∀ c < s.size.bays, s.seeks c true = false) ∧ s.seeks b false = true ∧ ∀ c < b, s.seeks c false = false
      ¬ shift) ∧
    (∃ (s : State) (b : Nat),
      s.Inv ∧
      b < s.size.bays ∧
      let few := (s.bays.filter fun y => y.sched.moving).length < 2
      let swap := few ∧ s.seeks b true = true ∧ ∀ c < b, s.seeks c true = false
      swap) ∧
    (∃ (s : State) (b : Nat),
      s.Inv ∧
      b < s.size.bays ∧
      let few := (s.bays.filter fun y => y.sched.moving).length < 2
      let swap := few ∧ s.seeks b true = true ∧ ∀ c < b, s.seeks c true = false
      ¬ swap) :=
  ⟨⟨sW1, 3, by decide +kernel⟩,
   ⟨q0, 0, by decide +kernel⟩,
   ⟨aw, 3, by decide +kernel⟩,
   ⟨q0, 0, by decide +kernel⟩,
   ⟨sW2, 3, by decide +kernel⟩,
   ⟨q0, 0, by decide +kernel⟩⟩

theorem met_2 :
    (∃ (s : State) (b : Nat) (_failed : List Nat),
      let y := (s.bay b).sched
      s.Inv ∧
      b < s.size.bays ∧
      s.idle = true ∧
      y.moving = false) ∧
    (∃ (s : State) (b : Nat) (failed : List Nat),
      let y := (s.bay b).sched
      let point := y.shadow / 2
      let relaxed := decide (y.shadow % 2 = 1)
      s.Inv ∧
      b < s.size.bays ∧
      s.idle = true ∧
      y.moving = true ∧
      (∀ pc < 64, s.pcInService b pc = true → recState (s.calRec b pc (point * 2 + b2n relaxed)) = 1 ∧ pc ∉ failed)) :=
  ⟨⟨q0, 0, ([]), by decide +kernel⟩,
   ⟨sW3, 3, ([]), by decide +kernel⟩⟩

end ShiftsAndSwapsInTurn

namespace HeatLadderTripsAndRestarts

def sB (f : Bay → Bay) (s : State := q0) (b := 3) : State := s.modBay b f
def th (f : Thermal → Thermal) (s : State := q0) (b := 3) : State := sB (fun y => { y with therm := f y.therm }) s b
def qb : State := { q0 with bays := q0.bays.mapIdx fun i (y : Bay) => if i = 3 then y else { y with repair := { y.repair with fence := 1 } } }
def cold (t : Nat) : State := sB (fun y => { y with therm := { y.therm with thermal := t, coolAt := 5400, stale := 64, comps := [0,0,0,0,0,0,0x3C] }, repair := { y.repair with fence := 3 } }) qb
def sW1 : State := { q0 with boot := { q0.boot with held := true } }
def sW2 : State := cold 5
def sW3 : State := q0.setObj 0x2A00 5 0
def sW4 : State := th fun t => { t with converting := [0, 2, 5] }
def sW5 : State := th (fun t => { t with converting := [0, 2, 5] }) (sB fun y => { y with train := { y.train with runs := [{ pc := 35, began := 0, windows := 1 }] } })
def sW6 : State := th fun t => { t with comps := [4, 0x1C, 0, 0, 0, 0, 4], thermal := 4, inLadder := true, level := 1, ladderAt := 3000 }
def sW7 : State := { th (fun t => { t with level := 3, ladderAt := 4900 }) with boot := { q0.boot with slowReq := true } }
def sW8 : State := { th (fun t => { t with level := 2, ladderAt := 4900 }) (th (fun t => { t with level := 1 }) q0 5) with boot := { q0.boot with slowReq := true } }
def sW9 : State := { th (fun t => { t with level := 2, ladderAt := 4900 }) with boot := { q0.boot with slowReq := true } }
def iW10 : Instr := .tripRestart 3 { poll := 1000 }
def iW11 : Instr := .tripRestart 3 { poll := 1600 }

theorem met_1 :
    (∃ (s : State) (b : Nat) (i : Nat) (th : Nat) (_on : Bool),
      s.Inv ∧
      b < s.size.bays ∧
      i < 6 ∧
      th < 7 ∧
      (4 ≤ i → th ≠ 6) ∧
      s.boot.held = true ∧
      s.coldWait = false) ∧
    (∃ (s : State) (b : Nat) (i : Nat) (th : Nat) (on : Bool),
      s.Inv ∧
      b < s.size.bays ∧
      i < 6 ∧
      th < 7 ∧
      (4 ≤ i → th ≠ 6) ∧
      let y := s.bay b
      let m : BitVec 8 := BitVec.ofNat 8 (2 ^ th)
      let v : BitVec 8 := if on = decide (2 ≤ th) then y.therm.comp i ||| m else y.therm.comp i &&& ~~~m
      let x : Thermal := { y.therm with comps := y.therm.comps.set i v }
      s.boot.held = false ∧
      s.coldWait = false ∧
      s.idle = true ∧
      mildFor y x = true) ∧
    (∃ (s : State) (b : Nat) (i : Nat) (th : Nat) (on : Bool),
      s.Inv ∧
      b < s.size.bays ∧
      i < 6 ∧
      th < 7 ∧
      (4 ≤ i → th ≠ 6) ∧
      let y := s.bay b
      let m : BitVec 8 := BitVec.ofNat 8 (2 ^ th)
      let v : BitVec 8 := if on = decide (2 ≤ th) then y.therm.comp i ||| m else y.therm.comp i &&& ~~~m
      let x : Thermal := { y.therm with comps := y.therm.comps.set i v }
      let tripped : Thermal := { x with thermal := 5, cause := x.tripCause, stale := x.stale ||| 64 }
      s.boot.held = false ∧
      s.coldWait = false ∧
      s.idle = true ∧
      s.fenced b = false ∧
      y.therm.live = true ∧
      y.repair.state ≠ 0 ∧
      1 ≤ x.tripCause ∧
      x.tripCause ≤ 3 ∧
      x.at120 = false ∧
      tripped.at120 = false ∧
      tripped.anyBit 4 = y.therm.inLadder) ∧
    (∃ (s : State) (b : Nat) (_temp : Int),
      s.Inv ∧
      b < s.size.bays ∧
      let y := s.bay b
      (y.repair.state < 2 ∨ y.therm.live = false ∨ y.sched.moving = true)) ∧
    (∃ (s : State) (b : Nat) (temp : Int),
      s.Inv ∧
      b < s.size.bays ∧
      let y := s.bay b
      let c : BitVec 8 := (List.range 7).foldl (fun v k => let th : Int := [-160, 0, 1360, 1520, 1680, 1760, 1920].getD k 0; let m : BitVec 8 := BitVec.ofNat 8 (2 ^ k); if th ≤ temp then (if k < 2 then v &&& ~~~m else v ||| m) else if temp ≤ th - 48 then (if k < 2 then v ||| m else v &&& ~~~m) else v) (y.therm.comp 6)
      let n := max s.now (y.therm.polledAt + 100000)
      let x : Thermal := { y.therm with poll := temp, polledAt := n, comps := y.therm.comps.set 6 c }
      2 ≤ y.repair.state ∧
      y.sched.moving = false ∧
      s.idle = true ∧
      mildFor y x = true) ∧
    (∃ (s : State),
      s.Inv ∧
      s.obj 0x2A00 5 = 0) :=
  ⟨⟨sW1, 0, 0, 0, false, by decide +kernel⟩,
   ⟨q0, 0, 0, 0, false, by decide +kernel⟩,
   ⟨q0, 0, 0, 5, true, by decide +kernel⟩,
   ⟨sW2, 3, (-200), by decide +kernel⟩,
   ⟨q0, 0, 0, by decide +kernel⟩,
   ⟨sW3, by decide +kernel⟩⟩

theorem met_2 :
    (∃ (s : State),
      s.Inv ∧
      s.obj 0x2A00 5 ≠ 0 ∧
      s.setCounters = []) ∧
    (∃ (s : State) (b : Nat) (i : Nat) (_temp : Int),
      s.Inv ∧
      b < s.size.bays ∧
      i ∉ (s.bay b).therm.converting) ∧
    (∃ (s : State) (b : Nat) (i : Nat) (_temp : Int),
      s.Inv ∧
      b < s.size.bays ∧
      i ∈ (s.bay b).therm.converting ∧
      s.quadStale b i = false ∧
      (s.boot.code ≠ 0x20 ∨ s.fenced b = true ∨ 5 ≤ i)) ∧
    (∃ (s : State) (b : Nat) (i : Nat) (_temp : Int),
      s.Inv ∧
      b < s.size.bays ∧
      i ∈ (s.bay b).therm.converting ∧
      s.quadStale b i = true) ∧
    (∃ (s : State) (b : Nat),
      s.Inv ∧
      b < s.size.bays ∧
      s.idle = true ∧
      let x := (s.bay b).therm
      x.inLadder = true ∧
      (x.level = 1 ∨ x.level = 2)) ∧
    (∃ (s : State) (b : Nat),
      s.Inv ∧
      b < s.size.bays ∧
      s.idle = true ∧
      let x := (s.bay b).therm
      x.inLadder = false ∧
      x.level = 3 ∧
      s.boot.slowReq = true) :=
  ⟨⟨q0, by decide +kernel⟩,
   ⟨q0, 0, 0, (-200), by decide +kernel⟩,
   ⟨sW4, 3, 5, (-200), by decide +kernel⟩,
   ⟨sW5, 3, 2, (-200), by decide +kernel⟩,
   ⟨sW6, 3, by decide +kernel⟩,
   ⟨sW7, 3, by decide +kernel⟩⟩

theorem met_3 :
    (∃ (s : State) (b : Nat),
      s.Inv ∧
      b < s.size.bays ∧
      s.idle = true ∧
      let x := (s.bay b).therm
      x.inLadder = false ∧
      x.level = 2 ∧
      s.boot.slowReq = true ∧
      (∃ d < s.size.bays, d ≠ b ∧ (s.bay d).therm.level ≠ 0)) ∧
    (∃ (s : State) (b : Nat),
      s.Inv ∧
      b < s.size.bays ∧
      s.idle = true ∧
      let x := (s.bay b).therm
      x.inLadder = false ∧
      x.level = 2 ∧
      s.boot.slowReq = true ∧
      (∀ d < s.size.bays, d ≠ b → (s.bay d).therm.level = 0)) ∧
    (∃ (s : State) (b : Nat) (r : RestartReport) (c : Instr),
      s.Inv ∧
      b < s.size.bays ∧
      s.idle = true ∧
      (s.bay b).repair.fence = 3 ∧
      (s.bay b).repair.state ≠ 0 ∧
      (s.bay b).therm.coolAt ≠ 0 ∧
      (s.bay b).therm.thermal = 5 ∧ c = .tripRestart b r ∨ (s.bay b).therm.thermal = 0 ∧ c = .coldRestart b r ∧
      let x := (s.bay b).therm
      let y : Thermal := { x with stale := x.stale &&& 0xBF, poll := r.poll, comps := x.comps.set 6 (pollComp (x.comp 6) r.poll) }
      r.poll < 1520 ∧
      r.report = {} ∧
      popcount 64 (s.bay b).repair.pcsOut.toNat ≤ 4 ∧
      s.obj 0x2B00 3 ≤ 128 ∧
      (s.bay b).train.carrelErased.length ≤ 4 ∧
      y.tripCause = 0 ∧
      y.at120 = false ∧
      y.anyBit 4 = x.inLadder) ∧
    (∃ (s : State) (b : Nat) (r : RestartReport) (c : Instr),
      s.Inv ∧
      b < s.size.bays ∧
      s.idle = true ∧
      (s.bay b).repair.fence = 3 ∧
      (s.bay b).repair.state ≠ 0 ∧
      (s.bay b).therm.coolAt ≠ 0 ∧
      (s.bay b).therm.thermal = 5 ∧ c = .tripRestart b r ∨ (s.bay b).therm.thermal = 0 ∧ c = .coldRestart b r ∧
      1520 ≤ r.poll) :=
  ⟨⟨sW8, 3, by decide +kernel⟩,
   ⟨sW9, 3, by decide +kernel⟩,
   ⟨sW2, 3, ({ poll := 1000 }), iW10, by decide +kernel⟩,
   ⟨sW2, 3, ({ poll := 1600 }), iW11, by decide +kernel⟩⟩

end HeatLadderTripsAndRestarts

namespace HealthPauseAndTimers

def sd (w : Bool) : Sdo := { up := true, wait := w, block := false, index := 0x2D00, sub := 3, buf := [], size := 2, at_ := 4500 }
def hold1 : CreditHold := { cls := 1, withheld := 700, until_ := 5100 }
def q0h := q0.setObj 0x1017 0 500
def sW1 : State := q0.setObj 0x2E00 0x0E 1
def sW2 : State := { q0h with boot := { q0h.boot with held := true, code := 1 } }
def sW3 : State := { q0 with buses := { q0.buses with sdo := [(0, sd false), (2, sd true)] } }
def sW4 : State := { q0.setObj 0x3800 1 1 with test := { q0.test with jostleAt := some 4000 } }
def sW5 : State := q0.setPort 0 { q0.port 0 with holds := [hold1] }

theorem met_1 :
    (∃ (s : State),
      s.Inv ∧
      s.setCounters = [] ∧
      s.silent = true) ∧
    (∃ (s : State),
      s.obj 0x2E00 1 ≠ 1 ∧
      s.setCounters = [] ∧
      s.obj 0x2E00 0x0E = 1 ∧
      s.pauseReady = true ∧
      s.obj 0x2E00 0x0B ≠ 2 ∧
      s.obj 0x2E00 0x0B ≠ 3) ∧
    (∃ (s : State),
      s.obj 0x2E00 1 ≠ 1 ∧
      s.setCounters = [] ∧
      (s.obj 0x2E00 0x0E ≠ 1 ∨ s.pauseReady = false)) ∧
    (∃ (s : State),
      s.obj 0x2E00 1 ≠ 1 ∧
      s.setCounters = [] ∧
      s.obj 0x2E00 0x0E ≠ 1) ∧
    (∃ (s : State),
      s.setCounters = [] ∧
      s.obj 0x1017 0 ≠ 0 ∧
      s.buses.nodeId ≠ 0 ∧
      s.catalogueUp = true ∧
      s.twins.disputed = false) ∧
    (∃ (s : State),
      s.setCounters = [] ∧
      (s.obj 0x1017 0 = 0 ∨ s.buses.nodeId = 0 ∨ s.catalogueUp = false)) :=
  ⟨⟨q0, by decide +kernel⟩,
   ⟨sW1, by decide +kernel⟩,
   ⟨q0, by decide +kernel⟩,
   ⟨q0, by decide +kernel⟩,
   ⟨q0, by decide +kernel⟩,
   ⟨sW2, by decide +kernel⟩⟩

theorem met_2 :
    (∃ (s : State) (ch : Nat),
      s.setCounters = [] ∧
      ∃ x ∈ s.sdo ch,
      x.wait = true) ∧
    (∃ (s : State) (ch : Nat),
      s.setCounters = [] ∧
      ∃ x ∈ s.sdo ch,
      x.wait = false ∧
      s.channelOn ch = true ∧
      s.twins.disputed = false) ∧
    (∃ (s : State),
      s.setCounters = [] ∧
      s.test.jostleAt = none) ∧
    (∃ (s : State),
      s.setCounters = [] ∧
      ∃ t0 ∈ s.test.jostleAt,
      (∀ i < 16, s.obj 0x3810 (i + 1) / 2 ^ 60 % 16 = 0)) ∧
    (∃ (s : State) (p : Nat) (c : BitVec 2) (_h : CreditHold),
      s.setCounters = [] ∧
      (∀ x ∈ (s.port p).holds, x.cls ≠ c.toNat)) ∧
    (∃ (s : State) (p : Nat) (c : BitVec 2) (h : CreditHold),
      s.setCounters = [] ∧
      (s.port p).holds = [h] ∧
      h.cls = c.toNat) :=
  ⟨⟨sW3, 2, by decide +kernel⟩,
   ⟨sW3, 0, by decide +kernel⟩,
   ⟨q0, by decide +kernel⟩,
   ⟨sW4, by decide +kernel⟩,
   ⟨q0, 0, 0, hold1, by decide +kernel⟩,
   ⟨sW5, 0, 1, hold1, by decide +kernel⟩⟩

end HealthPauseAndTimers

namespace CanAndI3cTransports

def qq : State := { qs with sessions := sessions0.map fun x => { x with priv := 2 } }
def sd (w : Bool) : Sdo := { up := true, wait := w, block := false, index := 0x2D00, sub := 3, buf := [], size := 2, at_ := 4500 }
def fr (n i sub v : Nat) : List Byte := [BitVec.ofNat 8 (0x23 + (4 - n) * 4)] ++ toBytes 2 i ++ toBytes 1 sub ++ padTo 4 (toBytes n v)
def fu (i sub : Nat) : List Byte := [0x40] ++ toBytes 2 i ++ toBytes 1 sub ++ zeros 4
def sW1 : State := { qq with buses := { qq.buses with sdo := [(0, sd false)], i3cAnswer := some (1, 3, [1, 2]) } }
def sW2 : State := { qq with buses := { qq.buses with i3cAnswer := some (2, 3, [1, 2, 3]), i3cDyn := 9, i3cStatic := 5, i3cMrl := 9, i3cMwl := 6 } }

theorem met_1 :
    (∃ (s : State) (ident : Nat) (f : List Byte),
      s.catalogueUp = true ∧
      s.twins.disputed = false ∧
      f.length = 8 ∧
      s.channelOf ident = none) ∧
    (∃ (s : State) (ident : Nat) (f : List Byte),
      s.catalogueUp = true ∧
      s.twins.disputed = false ∧
      f.length = 8 ∧
      ∃ ch ∈ s.channelOf ident,
      ∃ x ∈ s.sdo ch,
      f.headD 0 = 0x80) ∧
    (∃ (s : State) (ident : Nat) (f : List Byte),
      s.catalogueUp = true ∧
      s.twins.disputed = false ∧
      f.length = 8 ∧
      ∃ ch ∈ s.channelOf ident,
      s.sdo ch = none ∧
      f.headD 0 ∈ [0x00#8, 0x60, 0xE0]) ∧
    (∃ (s : State) (ident : Nat) (f : List Byte) (i : Nat) (sub : Nat) (n : Nat) (v : Nat),
      s.catalogueUp = true ∧
      s.twins.disputed = false ∧
      f.length = 8 ∧
      ∃ ch ∈ s.channelOf ident,
      let k := Sess.can ch
      s.sdo ch = none ∧
      i < 65536 ∧
      sub < 256 ∧
      1 ≤ n ∧
      n ≤ 4 ∧
      ∃ r ∈ s.objDef i sub,
      r.size = n ∧
      plainWrite i sub = true ∧
      s.accepts k i sub v = true ∧
      f = [BitVec.ofNat 8 (0x23 + (4 - n) * 4)] ++ toBytes 2 i ++ toBytes 1 sub ++ padTo 4 (toBytes n v)) ∧
    (∃ (s : State) (ident : Nat) (f : List Byte) (i : Nat) (sub : Nat) (n : Nat) (_v : Nat),
      s.catalogueUp = true ∧
      s.twins.disputed = false ∧
      f.length = 8 ∧
      (∀ x, s.computed x i sub = none) ∧
      ∃ ch ∈ s.channelOf ident,
      let k := Sess.can ch
      s.sdo ch = none ∧
      i < 65536 ∧
      sub < 256 ∧
      1 ≤ n ∧
      n ≤ 4 ∧
      ∃ r ∈ s.objDef i sub,
      r.size = n ∧
      plainRead i sub = true ∧
      r.acc ≠ .wo ∧
      r.sel = false ∧
      (s.session k).isSome = true ∧
      s.stopped = false ∧
      f = [0x40] ++ toBytes 2 i ++ toBytes 1 sub ++ zeros 4) ∧
    (∃ (s : State) (_cmd : Byte) (_i : Nat) (_sub : Nat) (_val : List Byte) (_bytes : List Byte),
      s.catalogueUp = true ∧
      s.twins.disputed = false ∧
      (s.buses.i3cAnswer).isSome = true) :=
  ⟨⟨qq, 0, (fr 2 0x1017 0 500), by decide +kernel⟩,
   ⟨sW1, (0x600 + 0x25), ([0x80, 0, 0, 0, 0, 0, 0, 0]), by decide +kernel⟩,
   ⟨qq, (0x600 + 0x25), ([0xE0, 1, 2, 3, 4, 5, 6, 7]), by decide +kernel⟩,
   ⟨qq, (0x600 + 0x25), (fr 2 0x1017 0 500), 0x1017, 0, 2, 500, by decide +kernel⟩,
   ⟨qq, (0x600 + 0x25), (fu 0x1017 0), 0x1017, 0, 2, 0, by decide +kernel, by decide +kernel, by decide +kernel, fun _ => rfl, by decide +kernel⟩,
   ⟨sW1, 0, 0, 0, (fr 2 0x1017 0 500), (fr 2 0x1017 0 500), by decide +kernel⟩⟩

theorem met_2 :
    (∃ (s : State) (_cmd : Byte) (_i : Nat) (_sub : Nat) (val : List Byte) (n : Nat),
      s.catalogueUp = true ∧
      s.twins.disputed = false ∧
      (s.buses.i3cAnswer.map (·.1)) ≠ some 1 ∧
      n < 65536 ∧
      n ≠ val.length) ∧
    (∃ (s : State) (cmd : Byte) (_i : Nat) (_sub : Nat) (val : List Byte),
      s.catalogueUp = true ∧
      s.twins.disputed = false ∧
      (s.buses.i3cAnswer.map (·.1)) ≠ some 1 ∧
      val.length < 65536 ∧
      6 + val.length ≤ s.buses.i3cMwl ∧
      cmd ≠ 1 ∧
      cmd ≠ 2) ∧
    (∃ (s : State) (_cmd : Byte) (i : Nat) (sub : Nat) (val : List Byte) (v : Nat),
      s.catalogueUp = true ∧
      s.twins.disputed = false ∧
      (s.buses.i3cAnswer.map (·.1)) ≠ some 1 ∧
      6 + val.length ≤ s.buses.i3cMwl ∧
      i < 65536 ∧
      sub < 256 ∧
      ∃ r ∈ s.objDef i sub,
      r.size < 65536 ∧
      val = toBytes r.size v ∧
      plainWrite i sub = true ∧
      s.accepts .i3c i sub v = true) ∧
    (∃ (s : State) (_cmd : Byte) (i : Nat) (sub : Nat) (val : List Byte) (_v : Nat),
      s.catalogueUp = true ∧
      s.twins.disputed = false ∧
      (s.buses.i3cAnswer.map (·.1)) ≠ some 1 ∧
      6 + val.length ≤ s.buses.i3cMwl ∧
      i < 65536 ∧
      sub < 256 ∧
      (∀ x, s.computed x i sub = none) ∧
      ∃ r ∈ s.objDef i sub,
      r.size < 65536 ∧
      val = [] ∧
      plainRead i sub = true ∧
      r.acc ≠ .wo ∧
      r.sel = false ∧
      (s.session .i3c).isSome = true ∧
      s.stopped = false) ∧
    (∃ (s : State) (_addr : Nat) (_static : Nat) (_len : Nat) (_bits : Byte),
      s.catalogueUp = true ∧
      (s.buses.i3cAnswer).isSome = true) ∧
    (∃ (s : State) (_st : Nat) (_code : Nat) (_v : List Byte) (_addr : Nat) (_static : Nat) (_len : Nat) (_bits : Byte),
      s.catalogueUp = true ∧
      s.buses.i3cAnswer = none) :=
  ⟨⟨qq, 0, 0, 0, (fr 2 0x1017 0 500), 0, by decide +kernel⟩,
   ⟨qq, 0, 0, 0, (fr 2 0x1017 0 500), by decide +kernel⟩,
   ⟨qq, 0, 0x1017, 0, (toBytes 2 500), 500, by decide +kernel⟩,
   ⟨qq, 0, 0x1017, 0, ([]), 0, by decide +kernel, by decide +kernel, by decide +kernel, by decide +kernel, by decide +kernel, by decide +kernel, fun _ => rfl, by decide +kernel⟩,
   ⟨sW1, 0, 0, 0, 0, by decide +kernel⟩,
   ⟨qq, 0, 0, (fr 2 0x1017 0 500), 0, 0, 0, 0, by decide +kernel⟩⟩

theorem met_3 :
    (∃ (s : State) (_st : Nat) (_code : Nat) (_v : List Byte) (_addr : Nat) (_static : Nat) (_len : Nat) (_bits : Byte),
      s.catalogueUp = true ∧
      s.buses.i3cDyn = 0) ∧
    (∃ (s : State) (_st : Nat) (_code : Nat) (_v : List Byte) (_addr : Nat) (_static : Nat) (_len : Nat) (_bits : Byte),
      s.catalogueUp = true ∧
      s.buses.i3cDyn ≠ 0) ∧
    (∃ (s : State) (_st : Nat) (_code : Nat) (_v : List Byte) (_addr : Nat) (_static : Nat) (len : Nat) (_bits : Byte),
      s.catalogueUp = true ∧
      len < 65536) :=
  ⟨⟨qq, 0, 0, (fr 2 0x1017 0 500), 0, 0, 0, 0, by decide +kernel⟩,
   ⟨sW2, 0, 0, (fr 2 0x1017 0 500), 0, 0, 0, 0, by decide +kernel⟩,
   ⟨qq, 0, 0, (fr 2 0x1017 0 500), 0, 0, 0, 0, by decide +kernel⟩⟩

end CanAndI3cTransports

namespace TestAccessPort

def sW1 : State := { q0 with boot := { q0.boot with testen := true }, test := { q0.test with bypassBit := true, pins := [true, false, true], ir := 0x03 } }

theorem met :
    (∃ (s : State),
      s.boot.testen = true) ∧
    (∃ (s : State),
      s.boot.testen = false) :=
  ⟨⟨sW1, by decide +kernel⟩,
   ⟨q0, by decide +kernel⟩⟩

end TestAccessPort

end Sys2Proof.Tests
end

/-! SUPPORT. A write that the checks of R428 let through settles: it leaves its effect's state, but for bookkeeping and its answer. -/

namespace Sys2Proof.Machine

/-! ### The answer of an access that is no message -/

/-- While the twins' outputs differ, the answer is held with their others (R16). -/
theorem State.catAnswer_disputed {s : State} (h : s.twins.disputed = true) (k : Sess) (c : Nat) (b : List Byte) :
    s.catAnswer k none c b = s.holdOut (.cat k none c b) := if_pos h

/-- A session that nothing waits on gets the answer on its own transport (R430, R432). -/
theorem State.catAnswer_emit {s : State} {k : Sess} (h : s.twins.disputed = false) (hw : s.waitsOn k = false) (c : Nat) (b : List Byte) :
    s.catAnswer k none c b = s.emit (.cat k c b) := by
  have hd : ¬ s.twins.disputed = true := by simp [h]
  unfold State.catAnswer
  rw [if_neg hd]
  unfold State.waitsOn at hw
  cases k with
  | can ch =>
    dsimp only at hw ⊢
    cases hx : s.sdo ch with
    | none => rfl
    | some x =>
      rw [hx] at hw
      exact if_neg (by simpa using hw)
  | i3c =>
    dsimp only at hw ⊢
    split
    · next ha =>
      rw [ha] at hw
      contradiction
    · rfl
  | inband p q => rfl
  | clerk => rfl

/-- Outside a dispute the upload that an answer begins leaves the twins alone. -/
theorem State.sdoResume_twins {s : State} (h : s.twins.disputed = false) (ch : Nat) (x : Sdo) (b : List Byte) :
    (s.sdoResume ch x b).twins = s.twins := by
  unfold State.sdoResume State.emitBus
  rw [if_neg (by simp [h])]
  simp

/-- Outside a dispute an answer leaves the twins alone. -/
theorem State.catAnswer_twins {s : State} (h : s.twins.disputed = false) (k : Sess) (c : Nat) (b : List Byte) :
    (s.catAnswer k none c b).twins = s.twins := by
  unfold State.catAnswer
  rw [if_neg (by simp [h])]
  cases k with
  | can ch =>
    dsimp only
    split
    · split
      · exact State.sdoResume_twins h ch _ b
      · rfl
    · rfl
  | i3c => dsimp only; split <;> rfl
  | inband p q => rfl
  | clerk => rfl

/-! ### What an accepted write leaves -/

/-- A verdict that neither waits nor resets is answered from the state with its bookkeeping done. -/
theorem Verdict.noted_finish {w : Verdict} (hw : w.wait = false) (hr : w.reset = false) (x : Session) (r : ObjDef) (i sub v : Nat)
    (k : Sess) : (w.noted x r i sub v).finish k none = (w.noted x r i sub v).st.catAnswer k none w.abort w.value := by
  unfold Verdict.finish Verdict.noted
  simp [hw, hr]

/-- The bookkeeping of a write sends nothing. -/
@[simp] theorem Verdict.noted_keeps (w : Verdict) (x : Session) (r : ObjDef) (i sub v : Nat) :
    (w.noted x r i sub v).st.wire = w.st.wire ∧ (w.noted x r i sub v).st.buses = w.st.buses ∧
    (w.noted x r i sub v).st.twins = w.st.twins := by
  unfold Verdict.noted
  by_cases h : w.abort = 0 <;> simp [h]

/-- The bookkeeping of a write changes no more of the test state than the counts. -/
theorem Verdict.noted_test (w : Verdict) (x : Session) (r : ObjDef) (i sub v : Nat) :
    (w.noted x r i sub v).st.test = { w.st.test with ctrs := (w.noted x r i sub v).st.test.ctrs } := by
  unfold Verdict.noted
  by_cases h : w.abort = 0
  · simpa [h] using State.count_test (w.st.noteWrite x r i sub v) _
  · simpa [h] using State.count_test w.st _

/-- What waits on a session is a matter of the buses alone. -/
theorem State.waitsOn_congr {s t : State} (h : t.buses = s.buses) (k : Sess) : t.waitsOn k = s.waitsOn k := by
  unfold State.waitsOn State.sdo
  rw [h]

/-- The fields that an accepted write leaves to its effect. -/
theorem Verdict.noted_finish_frame {w : Verdict} (hw : w.wait = false) (hr : w.reset = false) (x : Session) (r : ObjDef)
    (i sub v : Nat) (k : Sess) {t : State} (ht : (w.noted x r i sub v).finish k none = t) :
    t = { w.st with wire := t.wire, objs := t.objs, day := t.day, buses := t.buses, twins := t.twins
                    test := { w.st.test with ctrs := t.test.ctrs } } := by
  have hk := Verdict.finish_keeps w x r i sub v k hw hr
  have hc := Verdict.noted_test w x r i sub v
  have htest : t.test = (w.noted x r i sub v).st.test := by rw [← ht, Verdict.noted_finish hw hr]; simp
  rw [← htest] at hc
  rw [ht] at hk
  cases t
  dsimp only at hk hc
  simp only [hk, State.mk.injEq, true_and, and_true]
  exact hc

/-- An accepted write that neither waits nor resets settles in its effect's state. -/
theorem Verdict.noted_finish_settled {w : Verdict} (hw : w.wait = false) (hr : w.reset = false) (x : Session) (r : ObjDef)
    (i sub v : Nat) (k : Sess) : Settled k w.abort w.value w.st ((w.noted x r i sub v).finish k none) := by
  obtain ⟨-, hbuses, htwins⟩ := Verdict.noted_keeps w x r i sub v
  refine ⟨Verdict.noted_finish_frame hw hr x r i sub v k rfl, Verdict.finish_same w x r i sub v k hw hr, ?_⟩
  rw [Verdict.noted_finish hw hr]
  by_cases hd : w.st.twins.disputed = true
  · rw [if_pos hd, State.catAnswer_disputed (by rw [htwins]; exact hd)]
    simp [State.holdOut]
  · rw [if_neg hd]
    have hd' : (w.noted x r i sub v).st.twins.disputed = false := by rw [htwins]; simpa using hd
    refine ⟨(State.catAnswer_twins hd' k _ _).trans htwins, fun hwait => ?_⟩
    rw [State.catAnswer_emit hd' ((State.waitsOn_congr hbuses k).trans hwait)]
    simp

/-- A write that a condition refuses, or that leads to a state, settles in the one or the other. -/
theorem State.unless_settled (s : State) (bad : Bool) (code : Nat) (u : State) (x : Session) (r : ObjDef) (i sub v : Nat) (k : Sess) :
    let t := ((s.unless bad code u).noted x r i sub v).finish k none
    (bad = false → Settled k 0 [] u t) ∧ (bad = true → Settled k code [] s t) := by
  refine ⟨?_, ?_⟩
  · rintro rfl
    exact Verdict.noted_finish_settled (w := u.done) rfl rfl x r i sub v k
  · rintro rfl
    exact Verdict.noted_finish_settled (w := s.abort code) rfl rfl x r i sub v k

/-- A value that the checks let through fits its object. -/
theorem State.lt_of_accepts {s : State} {k : Sess} {i sub v : Nat} {r : ObjDef} (hf : s.objDef i sub = some r)
    (ha : s.accepts k i sub v = true) : v < 256 ^ r.size := by
  simp only [State.accepts, hf, Bool.and_eq_true, decide_eq_true_eq] at ha
  obtain ⟨-, ⟨⟨-, hfits⟩, -⟩, -⟩ := ha
  exact hfits

/-! ### The power envelope (R31) -/

/-- The envelope's row in the dictionary: a rw object of two bytes, written with Service privilege (R33). -/
def envelopeRow : ObjDef := ⟨0x2020, 0x2020, 1, 1, 2, .rw, 0x280, 0, none, none, none, 1, false, false⟩

/-- The dictionary has this row at 0x2020:01. -/
theorem Objects.find_envelope : Objects.find 0x2020 1 = some envelopeRow := by decide +kernel

/-- The envelope is there in every size of the block. -/
theorem State.objDef_envelope (s : State) : s.objDef 0x2020 1 = some envelopeRow := by
  have hl : s.size.lacksObject 0x2020 = false := by
    simp only [Size.lacksObject, Bool.or_eq_false_iff, Bool.and_eq_false_iff, decide_eq_false_iff_not]
    omega
  simp [State.objDef, Objects.find_envelope, hl]

/-- A write of the envelope takes 300 to 640 W and refuses any other value. -/
theorem State.effect_envelope (s : State) (x : Session) (v : Nat) (bs : List Byte) (rep : StepReport) :
    s.effect x 0x2020 1 v bs rep = s.unless (v < 300 || 640 < v) abRange (s.setObj 0x2020 1 v) := by
  simp [State.effect, State.writeBoot]

/-- Settles O28: the write is the envelope's own effect, and `State.unless` decides between its two ends. -/
theorem powerEnvelopeHasRange : Obligations.PowerEnvelopeHasRange := by
  intro k s v ha
  have hf := s.objDef_envelope
  have hbytes : ofBytes (toBytes 2 v) = v := ofBytes_toBytes 2 v (State.lt_of_accepts hf ha)
  have hwrite := State.writeBytes_accepted s k 0x2020 1 (toBytes 2 v) {} envelopeRow hf (by rw [hbytes]; exact ha)
    (toBytes_length 2 v) rfl (by decide)
  rw [hbytes, State.effect_envelope] at hwrite
  obtain ⟨hin, hout⟩ := State.unless_settled (s.seated k) (v < 300 || 640 < v) abRange ((s.seated k).setObj 0x2020 1 v) (s.current k)
    envelopeRow 0x2020 1 v k
  rw [← hwrite] at hin hout
  exact ⟨s.writeBytes k 0x2020 1 (toBytes 2 v), rfl, fun h₁ h₂ => hin (by simpa using ⟨h₁, h₂⟩), fun h => hout (by simpa using h)⟩

end Sys2Proof.Machine

/-! SUPPORT. Fences of both kinds: what a FENCE waits for beside the requests in flight, and what a fence cycle leaves of a bay. -/

namespace Sys2Proof.Machine

/-! ### A running block and what a command makes of it -/

/-- The state that a command leaves; a stop leaves the state as it was. -/
def State.ran (s : State) (i : Instr) : State :=
  match exec i s with
  | .next t => t
  | _ => s

theorem State.ran_of_next {s t : State} {i : Instr} (h : exec i s = .next t) : s.ran i = t := by
  unfold State.ran
  rw [h]

/-- A running block with port 0 in service, credits for answers there, and management events told to nobody. -/
def onePortUp : State :=
  let s := ({ boot := { code := 0x20, step := 11, held := false, brst := true, pwren := 0xFFFFFF }, now := 5000 } : State).enablePort 0
  (s.setPort 0 { s.port 0 with credits := List.replicate 8 16 }).setObj 0x2090 2 0

/-! ### FENCE (R104) -/

/-- A read with ORD and without SYNC that begins no sequence: Intake accepts it and holds it behind the gap (R52). -/
def readBehindGap : Arrival := { port := 0, hdr := { srcid := 5, ord := true } }

/-- A FENCE without ORD of the same source. -/
def fenceAfterRead : Arrival := { port := 0, hdr := { srcid := 5 } }

/-- The block that holds the read and has nothing in flight. -/
def gapHeld : State := onePortUp.ran (.rd readBehindGap)

/-- The FENCE covers the held read, which Intake accepted before it, and waits for it (R104). -/
theorem fence_waits_for_held_read :
    ((gapHeld.ran (.fenceFull fenceAfterRead)).waits.map fun w => w.covers) = [[0]] := by decide +kernel

/-- Refutes O18 in its first clause: with nothing in flight a full FENCE is still not answered where Intake holds an earlier read of its
source behind a gap, since R104 has the FENCE cover it. -/
theorem not_fencesCompleteOrWait : ¬ Obligations.FencesCompleteOrWait := by
  unfold Obligations.FencesCompleteOrWait
  intro h
  have hruns : gapHeld.runsNow (withW3 (asMsg fenceAfterRead 0x0C 0) 3 0) 1 = true := by decide +kernel
  obtain ⟨hnow, -⟩ := h fenceAfterRead gapHeld (.fenceFull fenceAfterRead) 0 (by simp)
  obtain ⟨t, hexec, -, -, hframe⟩ := hnow hruns
  have hnone : gapHeld.waits = [] := by decide +kernel
  have hwaits := fence_waits_for_held_read
  rw [State.ran_of_next hexec, hframe, hnone] at hwaits
  cases hwaits

/-! ### A fence cycle and the bursts of its bay (R122, R226) -/

/-- A change of a bay that keeps its scheduling state keeps that of every bay. -/
theorem State.sched_modBay (s : State) (b : Nat) (f : Bay → Bay) (hf : ∀ y, (f y).sched = y.sched) (d : Nat) :
    ((s.modBay b f).bay d).sched = (s.bay d).sched := by
  by_cases hd : d = b
  · subst hd
    by_cases hlen : d < s.bays.length
    · rw [State.bay_modBay s d d f hlen, if_pos rfl, hf]
    · simp [State.bay, State.modBay, State.setBay, hlen]
  · rw [State.modBay, State.bay_setBay_ne s _ hd]

/-- A state that is `State.fencedNow` but for its objects has the scheduling state of before in every bay. -/
theorem Leaves.sched_fencedNow {s t : State} {b cause : Nat} {l : List (Nat × Nat × Nat)} (h : Leaves s t (s.fencedNow b cause) l)
    (d : Nat) : (t.bay d).sched = (s.bay d).sched := by
  obtain ⟨hframe, -, -⟩ := h
  rw [hframe]
  exact s.sched_modBay b
    (fun y => { y with repair := { y.repair with fence := cause }
                       train := { y.train with runs := [], requested := [], window := none } }) (fun _ => rfl) d

/-- The block with a real-time burst of PC 0 of bay 0 for which no request is left and whose hold has not begun. -/
def burstOpen : State := onePortUp.modBay 0 fun y => { y with sched := { y.sched with pcs := [{ pc := 0, burst := true }] } }

/-- When the bursts of a bay's listed PCs end: none while the hold of one has not begun. -/
def State.burstEnds (s : State) (b : Nat) : List (Option Nat) := (s.bay b).sched.pcs.map (·.burstOff)

/-- The fence cycle of a double-bit error drops the bay's entries that are over, and so begins the hold of the burst (R226). -/
theorem pigeonhole_fence_begins_hold :
    (burstOpen.ran (.pigeonholeEccError 0 true)).burstEnds 0 = [some (burstOpen.now + burstOpen.obj 0x2100 8)] := by decide +kernel

/-- Refutes O45 in its clause on the Pigeonholes: the premise of a quiet block allows a real-time burst without a request, and the fence
cycle begins that burst's hold, where `State.fencedNow` keeps the bay's scheduling state. -/
theorem not_readsWritebacksAndScrubbing : ¬ Obligations.ReadsWritebacksAndScrubbing := by
  unfold Obligations.ReadsWritebacksAndScrubbing
  rintro ⟨-, -, -, hpigeonhole, -⟩
  have hinv : burstOpen.Inv := by decide +kernel
  have hbay : 0 < burstOpen.size.bays := by decide
  have hidle : burstOpen.idle = true := by decide +kernel
  have hfenced : burstOpen.fenced 0 = false := by decide +kernel
  obtain ⟨hdouble, -⟩ := hpigeonhole burstOpen 0 hinv hbay
  obtain ⟨t, hexec, hleaves⟩ := hdouble hidle hfenced
  have hopen : t.burstEnds 0 = [none] := by rw [State.burstEnds, hleaves.sched_fencedNow]; rfl
  have hbegun := pigeonhole_fence_begins_hold
  rw [State.ran_of_next hexec, hopen] at hbegun
  cases hbegun

end Sys2Proof.Machine
